-- ==== Sys2Proof/Word.lean ====
section
/-! DEFINITION. The words of the block: the byte, and the three opaque token types
(00_scope.md rules R11 and R14). -/

namespace Sys2Proof

/-- A byte: 8 bits, an unsigned integer 0 to 255 (R14). A bus address is a byte too
(R10: `ADDR_W = 8`). -/
abbrev Byte := BitVec 8

/-- A callback reference (R11): an opaque token. The block stores it, compares it with
`NONE` and hands it to the environment; it never computes with it. Its width is in no
source, so the token is a natural number (log 18). -/
structure Cb where
  token : Nat
deriving DecidableEq, Repr

/-- `NONE`, "not set": the all-zero value of `CB` (R11). -/
def Cb.NONE : Cb := ⟨0⟩

/-- The opaque user data kept beside a handler (R11). -/
structure Ud where
  token : Nat
deriving DecidableEq, Repr

/-- The timeout value handed to the transport (R11, R185): never measured by the block. -/
structure Timeout where
  token : Nat
deriving DecidableEq, Repr

end Sys2Proof
end

