-- ==== Sys2Proof/Syntax.lean ====
section
/-! DEFINITION. What the block is asked to do: the Message record it exchanges, the
instructions (one constructor per row of spec/opcode_table.json) and the two ports they
arrive on. -/

namespace Sys2Proof

/-- The two roles (10_state.md R28). -/
inductive Role where
  | controller
  | peripheral
deriving DecidableEq, Repr

/-- The Message record (10_state.md R21 to R26), a plain value carried by operations.
`data` lists the payload bytes that have a defined value, from offset 0; a byte of the
payload array that the list does not reach has no defined value (R25), and an operation
that meets one, which takes a record somebody filled wrongly, reads a free byte (log 10). -/
structure Message where
  typeId  : Byte
  opcode  : Byte
  dataLen : Byte
  data    : List Byte
  crc8    : Byte
deriving DecidableEq, Repr, Inhabited

/-- Equal as messages (R21): type, opcode, length and the payload in use agree; `crc8` and
the bytes at and above `data_len` take no part. -/
def Message.Same (m n : Message) : Prop :=
  m.typeId = n.typeId ∧ m.opcode = n.opcode ∧ m.dataLen = n.dataLen ∧
    m.data.take m.dataLen.toNat = n.data.take n.dataLen.toNat

/-- The instructions: the 20 operations of the command port (30_encoding.md R82) and the
9 classes of arriving wire frames (R72, R74, R89). The operands of a frame class are the
header's fields, less the opcode bits the class fixes, and every byte after the header. -/
inductive Instr where
  | crc8 (bytes : List Byte)
  | msgInit (typeId opcode : Byte)
  | appendU8 (m : Message) (v : BitVec 8)
  | appendU16 (m : Message) (v : BitVec 16)
  | appendU24 (m : Message) (v : BitVec 24)
  | appendU32 (m : Message) (v : BitVec 32)
  | readU8 (buf : List Byte) (len offset : Byte)
  | readU16 (buf : List Byte) (len offset : Byte)
  | readU32 (buf : List Byte) (len offset : Byte)
  | encode (m : Message) (outCapacity : Nat)
  | decode (bytes : List Byte) (inLength : Nat) (useCtx : Bool)
  | ctxInit (role : Role) (address : Byte)
  | register (opcode : Byte) (cb : Cb) (ud : Ud)
  | setOnMessage (cb : Cb)
  | setOnRequest (cb : Cb)
  | ctxRead (sel : Byte)
  | receive (bytes : List Byte) (inLength : Nat)
  | request
  | send (dest : Byte) (m : Message)
  | scan (start stop : Byte) (strict : Bool) (capacity : Nat) (timeout : Timeout)
  | frameGeneral (typeId : Byte) (op : BitVec 7) (dataLen : Byte) (rest : List Byte)
  | frameUnclassified80BF (typeId : Byte) (op : BitVec 6) (dataLen : Byte) (rest : List Byte)
  | frameUnclassifiedC0DF (typeId : Byte) (op : BitVec 5) (dataLen : Byte) (rest : List Byte)
  | frameUnclassifiedE0EF (typeId : Byte) (op : BitVec 4) (dataLen : Byte) (rest : List Byte)
  | frameUnclassifiedF0F7 (typeId : Byte) (op : BitVec 3) (dataLen : Byte) (rest : List Byte)
  | frameUnclassifiedF8FB (typeId : Byte) (op : BitVec 2) (dataLen : Byte) (rest : List Byte)
  | frameUnclassifiedFCFD (typeId : Byte) (op : BitVec 1) (dataLen : Byte) (rest : List Byte)
  | frameSetReply (typeId : Byte) (dataLen : Byte) (rest : List Byte)
  | frameReservedFF (typeId : Byte) (dataLen : Byte) (rest : List Byte)
deriving DecidableEq, Repr

/-- What the outside presents to the block (log 3): the bytes of one command on the command
port (R82), the bytes of one "bytes arrived" event, or one "peer wants to read" event
(60_exceptions.md R209). -/
inductive Input where
  | command (bytes : List Byte)
  | bytesArrived (bytes : List Byte)
  | readRequested
deriving DecidableEq, Repr

end Sys2Proof
end

