-- ==== Sys2Proof/Machine/Bytes.lean ====
section
/-! DEFINITION. Byte order and bit fields, said once: little-endian values (20_memory.md R57,
30_encoding.md R80), the 24-bit header word of the opcode table (R72), and the opcode byte of
a frame class (R89). -/

namespace Sys2Proof.Machine

/-- The `w` bytes of a value, least significant first: byte `k` is `v[8k+7:8k]` (R57, R80). -/
def leBytes : Nat → Nat → List Byte
  | 0, _ => []
  | w + 1, v => BitVec.ofNat 8 v :: leBytes w (v / 256)

/-- The unsigned value whose least significant byte is the first (R57, R80). -/
def leValue : List Byte → Nat
  | [] => 0
  | b :: bs => b.toNat + 256 * leValue bs

/-- The opcode byte of a frame class: the bits the class fixes and the low bits it leaves
open (R89). -/
def classOpcode {k : Nat} (fixed : Byte) (low : BitVec k) : Byte := fixed ||| low.setWidth 8

/-- The three header bytes in wire order (R70) of the table's header word
`H = type_id << 16 | opcode << 8 | data_len` (R72). -/
def headerBytes (h : Nat) : List Byte :=
  [BitVec.ofNat 8 (h / 65536), BitVec.ofNat 8 (h / 256), BitVec.ofNat 8 h]

/-- The bit of a role (10_state.md R28, 30_encoding.md R85): 0 CONTROLLER, 1 PERIPHERAL. -/
def roleBit : Role → Bool
  | .controller => false
  | .peripheral => true

end Sys2Proof.Machine
end

