-- ==== Sys2Proof/WellFormed.lean ====
section
/-! DEFINITION. Which instructions the command port can carry (log 4): counts, capacities,
lengths and tokens take four bytes there, so each stays below `2^32`. No operand value that
an operation gives a meaning to is excluded for any other reason: a Message need not be
valid (R24), `in_length` need not match the buffer (R237), and every frame is well formed. -/

namespace Sys2Proof

/-- The bound of a four-byte operand of the port (log 4). -/
def portBound : Nat := 2 ^ 32

/-- A natural number the port can carry. -/
def portNat (n : Nat) : Bool := decide (n < portBound)

/-- A byte sequence the port can carry. -/
def portSeq (s : List Byte) : Bool := portNat s.length

/-- A Message the port can carry. -/
def Message.portable (m : Message) : Bool := portSeq m.data

/-- The instruction can be presented on its port. -/
def Instr.wellFormed : Instr → Bool
  | .crc8 bytes => portSeq bytes
  | .msgInit _ _ => true
  | .appendU8 m _ => m.portable
  | .appendU16 m _ => m.portable
  | .appendU24 m _ => m.portable
  | .appendU32 m _ => m.portable
  | .readU8 buf _ _ => portSeq buf
  | .readU16 buf _ _ => portSeq buf
  | .readU32 buf _ _ => portSeq buf
  | .encode m cap => m.portable && portNat cap
  | .decode bytes len _ => portSeq bytes && portNat len
  | .ctxInit _ _ => true
  | .register _ cb ud => portNat cb.token && portNat ud.token
  | .setOnMessage cb => portNat cb.token
  | .setOnRequest cb => portNat cb.token
  | .ctxRead _ => true
  | .receive bytes len => portSeq bytes && portNat len
  | .request => true
  | .send _ m => m.portable
  | .scan _ _ _ cap timeout => portNat cap && portNat timeout.token
  | .frameGeneral _ _ _ _ => true
  | .frameUnclassified80BF _ _ _ _ => true
  | .frameUnclassifiedC0DF _ _ _ _ => true
  | .frameUnclassifiedE0EF _ _ _ _ => true
  | .frameUnclassifiedF0F7 _ _ _ _ => true
  | .frameUnclassifiedF8FB _ _ _ _ => true
  | .frameUnclassifiedFCFD _ _ _ _ => true
  | .frameSetReply _ _ _ => true
  | .frameReservedFF _ _ _ => true

end Sys2Proof
end

