-- ==== Sys2Proof/Decode.lean ====
section
/-! DEFINITION. From what stands on a port to an instruction, total and refusing by name;
and back. The command codes are 30_encoding.md R82's, the classes of wire frames R74's and
R89's. How a command's operands lie on the port is not specified (R82), so their layout is
the model's (log 4): in the table's order, values little-endian at their own width, natural
numbers and tokens in four bytes, a byte sequence as its four-byte count and its bytes, a
Message as `type_id, opcode, data_len, crc8` and the sequence `data`, a 1-bit operand as a
byte 0 or 1. Beats after the last operand are not looked at (log 5). -/

namespace Sys2Proof

open Sys2Proof.Machine (leBytes leValue classOpcode headerBytes roleBit)

/-- Why an input is no instruction. -/
inductive DecodeReject where
  /-- A command without its command code. -/
  | noCommandCode
  /-- A code that is not in R82's table (R84, U1). -/
  | unassignedCommand (code : Byte)
  /-- The operands of this code are not all there, or a 1-bit operand is not 0 or 1. -/
  | malformedOperands (code : Byte)
deriving DecidableEq, Repr

/-- One byte. -/
def getByte : List Byte → Option (Byte × List Byte)
  | [] => none
  | b :: rest => some (b, rest)

/-- The first `n` bytes. -/
def getBytes (n : Nat) (bs : List Byte) : Option (List Byte × List Byte) :=
  if n ≤ bs.length then some (bs.take n, bs.drop n) else none

/-- An unsigned value of `w` bytes. -/
def getLe (w : Nat) (bs : List Byte) : Option (Nat × List Byte) :=
  match getBytes w bs with
  | some (v, rest) => some (leValue v, rest)
  | none => none

/-- A natural number or a token: four bytes. -/
def getNat (bs : List Byte) : Option (Nat × List Byte) := getLe 4 bs

/-- A byte sequence: its count, then its bytes. -/
def getSeq (bs : List Byte) : Option (List Byte × List Byte) :=
  match getNat bs with
  | some (n, rest) => getBytes n rest
  | none => none

/-- A 1-bit operand: a byte 0 or 1 (R85). -/
def getBit : List Byte → Option (Bool × List Byte)
  | [] => none
  | b :: rest => if b = 0 then some (false, rest) else if b = 1 then some (true, rest) else none

/-- A Message. -/
def getMessage : List Byte → Option (Message × List Byte)
  | t :: o :: l :: c :: rest =>
    match getSeq rest with
    | some (data, rest') => some ({ typeId := t, opcode := o, dataLen := l, data := data, crc8 := c }, rest')
    | none => none
  | _ => none

/-- The role of its 1-bit operand (R85: 0 CONTROLLER, 1 PERIPHERAL). -/
def roleOfBit (b : Bool) : Role := if b then .peripheral else .controller

/-- The operands of a command code, if R82 assigns the code: the inner `none` says that they
are malformed, the outer that the code is unassigned. -/
def parseCommand (code : Nat) (bs : List Byte) : Option (Option Instr) :=
  match code with
  | 0x01 => some (do let (s, _) ← getSeq bs; some (.crc8 s))
  | 0x10 => some (do let (t, bs) ← getByte bs; let (o, _) ← getByte bs; some (.msgInit t o))
  | 0x11 => some (do let (m, bs) ← getMessage bs; let (v, _) ← getLe 1 bs; some (.appendU8 m (BitVec.ofNat 8 v)))
  | 0x12 => some (do let (m, bs) ← getMessage bs; let (v, _) ← getLe 2 bs; some (.appendU16 m (BitVec.ofNat 16 v)))
  | 0x13 => some (do let (m, bs) ← getMessage bs; let (v, _) ← getLe 3 bs; some (.appendU24 m (BitVec.ofNat 24 v)))
  | 0x14 => some (do let (m, bs) ← getMessage bs; let (v, _) ← getLe 4 bs; some (.appendU32 m (BitVec.ofNat 32 v)))
  | 0x19 => some (do let (s, bs) ← getSeq bs; let (l, bs) ← getByte bs; let (o, _) ← getByte bs; some (.readU8 s l o))
  | 0x1A => some (do let (s, bs) ← getSeq bs; let (l, bs) ← getByte bs; let (o, _) ← getByte bs; some (.readU16 s l o))
  | 0x1C => some (do let (s, bs) ← getSeq bs; let (l, bs) ← getByte bs; let (o, _) ← getByte bs; some (.readU32 s l o))
  | 0x20 => some (do let (m, bs) ← getMessage bs; let (n, _) ← getNat bs; some (.encode m n))
  | 0x21 => some (do let (s, bs) ← getSeq bs; let (n, bs) ← getNat bs; let (u, _) ← getBit bs; some (.decode s n u))
  | 0x30 => some (do let (r, bs) ← getBit bs; let (a, _) ← getByte bs; some (.ctxInit (roleOfBit r) a))
  | 0x31 => some (do let (o, bs) ← getByte bs; let (c, bs) ← getNat bs; let (u, _) ← getNat bs; some (.register o ⟨c⟩ ⟨u⟩))
  | 0x32 => some (do let (c, _) ← getNat bs; some (.setOnMessage ⟨c⟩))
  | 0x33 => some (do let (c, _) ← getNat bs; some (.setOnRequest ⟨c⟩))
  | 0x34 => some (do let (n, _) ← getByte bs; some (.ctxRead n))
  | 0x38 => some (do let (s, bs) ← getSeq bs; let (n, _) ← getNat bs; some (.receive s n))
  | 0x39 => some (some .request)
  | 0x3A => some (do let (d, bs) ← getByte bs; let (m, _) ← getMessage bs; some (.send d m))
  | 0x40 => some (do
      let (a, bs) ← getByte bs
      let (z, bs) ← getByte bs
      let (s, bs) ← getBit bs
      let (n, bs) ← getNat bs
      let (t, _) ← getNat bs
      some (.scan a z s n ⟨t⟩))
  | _ => none

/-- The instruction of a command's bytes. -/
def decodeCommand : List Byte → Except DecodeReject Instr
  | [] => .error .noCommandCode
  | code :: bs =>
    match parseCommand code.toNat bs with
    | none => .error (.unassignedCommand code)
    | some none => .error (.malformedOperands code)
    | some (some i) => .ok i

/-- The class of an arriving frame by its opcode byte, with the masks and matches of R89. -/
def frameOf (t o l : Byte) (rest : List Byte) : Instr :=
  if o &&& 0x80#8 = 0x00#8 then .frameGeneral t (o.setWidth 7) l rest
  else if o &&& 0xC0#8 = 0x80#8 then .frameUnclassified80BF t (o.setWidth 6) l rest
  else if o &&& 0xE0#8 = 0xC0#8 then .frameUnclassifiedC0DF t (o.setWidth 5) l rest
  else if o &&& 0xF0#8 = 0xE0#8 then .frameUnclassifiedE0EF t (o.setWidth 4) l rest
  else if o &&& 0xF8#8 = 0xF0#8 then .frameUnclassifiedF0F7 t (o.setWidth 3) l rest
  else if o &&& 0xFC#8 = 0xF8#8 then .frameUnclassifiedF8FB t (o.setWidth 2) l rest
  else if o &&& 0xFE#8 = 0xFC#8 then .frameUnclassifiedFCFD t (o.setWidth 1) l rest
  else if o = 0xFE#8 then .frameSetReply t l rest
  else .frameReservedFF t l rest

/-- The instruction of a "bytes arrived" event: the class of its frame, or, where there are
too few bytes for a header and so no class, the RECEIVE that the host issues with them
(60_exceptions.md R209; log 6). -/
def decodeArrived : List Byte → Instr
  | t :: o :: l :: rest => frameOf t o l rest
  | few => .receive few few.length

/-- The instruction an input stands for. -/
def decode : Input → Except DecodeReject Instr
  | .command bytes => decodeCommand bytes
  | .bytesArrived bytes => .ok (decodeArrived bytes)
  | .readRequested => .ok .request

/-! The encoder, from the same tables. -/

/-- Four bytes for a natural number or a token. -/
def putNat (n : Nat) : List Byte := leBytes 4 n

/-- The count and the bytes of a sequence. -/
def putSeq (s : List Byte) : List Byte := putNat s.length ++ s

/-- A 1-bit operand. -/
def putBit (b : Bool) : List Byte := [if b then 1 else 0]

/-- A Message. -/
def putMessage (m : Message) : List Byte := m.typeId :: m.opcode :: m.dataLen :: m.crc8 :: putSeq m.data

/-- A command: its code and its operands. -/
def command (code : Byte) (operands : List Byte) : Input := .command (code :: operands)

/-- The bytes of an arriving frame: the header in wire order (R70), then the rest. -/
def arrived (t o l : Byte) (rest : List Byte) : Input := .bytesArrived (t :: o :: l :: rest)

/-- The input that stands for an instruction. -/
def encode : Instr → Input
  | .crc8 s => command 0x01 (putSeq s)
  | .msgInit t o => command 0x10 [t, o]
  | .appendU8 m v => command 0x11 (putMessage m ++ leBytes 1 v.toNat)
  | .appendU16 m v => command 0x12 (putMessage m ++ leBytes 2 v.toNat)
  | .appendU24 m v => command 0x13 (putMessage m ++ leBytes 3 v.toNat)
  | .appendU32 m v => command 0x14 (putMessage m ++ leBytes 4 v.toNat)
  | .readU8 s l o => command 0x19 (putSeq s ++ [l, o])
  | .readU16 s l o => command 0x1A (putSeq s ++ [l, o])
  | .readU32 s l o => command 0x1C (putSeq s ++ [l, o])
  | .encode m n => command 0x20 (putMessage m ++ putNat n)
  | .decode s n u => command 0x21 (putSeq s ++ (putNat n ++ putBit u))
  | .ctxInit r a => command 0x30 (putBit (roleBit r) ++ [a])
  | .register o cb ud => command 0x31 (o :: (putNat cb.token ++ putNat ud.token))
  | .setOnMessage cb => command 0x32 (putNat cb.token)
  | .setOnRequest cb => command 0x33 (putNat cb.token)
  | .ctxRead sel => command 0x34 [sel]
  | .receive s n => command 0x38 (putSeq s ++ putNat n)
  | .request => command 0x39 []
  | .send d m => command 0x3A (d :: putMessage m)
  | .scan a z s n t => command 0x40 (a :: z :: (putBit s ++ (putNat n ++ putNat t.token)))
  | .frameGeneral t o l rest => arrived t (classOpcode 0x00 o) l rest
  | .frameUnclassified80BF t o l rest => arrived t (classOpcode 0x80 o) l rest
  | .frameUnclassifiedC0DF t o l rest => arrived t (classOpcode 0xC0 o) l rest
  | .frameUnclassifiedE0EF t o l rest => arrived t (classOpcode 0xE0 o) l rest
  | .frameUnclassifiedF0F7 t o l rest => arrived t (classOpcode 0xF0 o) l rest
  | .frameUnclassifiedF8FB t o l rest => arrived t (classOpcode 0xF8 o) l rest
  | .frameUnclassifiedFCFD t o l rest => arrived t (classOpcode 0xFC o) l rest
  | .frameSetReply t l rest => arrived t 0xFE l rest
  | .frameReservedFF t l rest => arrived t 0xFF l rest

/-! The opcode table's words. -/

/-- The input on which a word of the opcode table stands, every bit above it zero. A row of
24 bits is a header word (R72): the arriving frame has that header, `data_len` payload bytes
of zero and a zero CRC byte. Any other row is a command code with operand beats of zero, as
many as the longest command of zero operands takes (SEND, 9, and ENCODE, 12, with room). -/
def tableInput (nbits w : Nat) : Input :=
  if nbits = 24 then .bytesArrived (headerBytes w ++ List.replicate (w % 256 + 1) 0)
  else .command (leBytes (nbits / 8) w ++ List.replicate 16 0)

/-- The instruction the decoder reads from a word of the opcode table. -/
def decodeTableWord (nbits w : Nat) : Option Instr :=
  match decode (tableInput nbits w) with
  | .ok i => some i
  | .error _ => none

end Sys2Proof
end

