-- ==== Sys2Proof/Machine/State.lean ====
section
/-! DEFINITION. The state of one endpoint (10_state.md), what it has answered and called, and
what the outside has yet to present; why the block stops; the state after reset. -/

namespace Sys2Proof.Machine

open Sys2Proof

/-- One slot of the handler table (10_state.md R30). -/
structure Slot where
  opcode : Byte
  cb     : Cb
  ud     : Ud
deriving DecidableEq, Repr

/-- A slot of a zero-initialised table (R47). -/
def Slot.zero : Slot := { opcode := 0, cb := Cb.NONE, ud := ⟨0⟩ }

/-- The Context record (10_state.md R28 to R37). -/
structure Context where
  /-- R28. -/
  role            : Role
  /-- R29. -/
  address         : Byte
  /-- R30: `HCAP` slots, those from `handlerCount` up free. -/
  handlerTable    : List Slot
  /-- R31. -/
  handlerCount    : Nat
  /-- R33: the staged opcode. -/
  requestedOpcode : Byte
  /-- R34: below `2^CNT_W`. -/
  crcErrorCount   : Nat
  /-- R35, R42: the one flag that lasts. -/
  lastCrcOk       : Bool
  /-- R36. -/
  onMessage       : Cb
  /-- R37. -/
  onRequest       : Cb
deriving DecidableEq, Repr

/-- How an operation that is not refused ended (30_encoding.md R83; its numbers are
`Status.statusCode` and `Status.causeCode` of Operands.lean). -/
inductive Status where
  | ok
  /-- `ERR_TRANSPORT`, cause `WRITE_FAILED` (60_exceptions.md R201). -/
  | writeFailed
  /-- `ERR_INTEGRITY`, cause `TOO_SHORT` (R202). -/
  | tooShort
  /-- `ERR_INTEGRITY`, cause `LEN_OVER_CAPACITY` (R202). -/
  | declaredLenOverCapacity
  /-- `ERR_INTEGRITY`, cause `TRUNCATED` (R202). -/
  | truncated
  /-- `ERR_INTEGRITY`, cause `CRC_MISMATCH` (R202). -/
  | crcMismatch
  /-- `ERR_CAPACITY`, cause `PAYLOAD_FULL` (R203). -/
  | payloadFull
  /-- `ERR_CAPACITY`, cause `BUFFER_TOO_SMALL` (R203). -/
  | bufferTooSmall
  /-- `ERR_CAPACITY`, cause `TABLE_FULL` (R203). -/
  | tableFull
  /-- `ERR_CAPACITY`, cause `LEN_OVER_CAPACITY` (R203). -/
  | lenOverCapacity
  /-- `ERR_BOUNDS`, cause `READ_OUT_OF_RANGE` (R204). -/
  | readOutOfRange
deriving DecidableEq, Repr

/-- The results of an operation, at the widths of 30_encoding.md R82 and R38. -/
inductive Result where
  | none
  | bit (v : Bool)
  | byte (v : Byte)
  | half (v : BitVec 16)
  | word (v : BitVec 32)
  | count (n : Nat)
  | token (cb : Cb)
  | message (m : Message)
  | frame (bytesWritten : Nat) (bytes : List Byte)
  | scan (n : Nat) (found : List Byte)
deriving DecidableEq, Repr

/-- The response of an operation (R83). -/
structure Response where
  status : Status
  result : Result
deriving DecidableEq, Repr

/-- A call the block makes to the environment (00_scope.md R18). -/
inductive EnvCall where
  | write (addr : Byte) (bytes : List Byte)
  | read (addr : Byte) (maxLen : Nat) (timeout : Timeout)
  | probe (addr : Byte)
  | handler (cb : Cb) (opcode : Byte) (data : List Byte) (len : Byte) (ud : Ud)
  | onMessage (cb : Cb) (m : Message)
  | onRequest (cb : Cb) (requestedOpcode : Byte) (m : Message)
deriving DecidableEq, Repr

/-- The environment's answers that are already scripted, one list per oracle, each in the
order in which they will be given (R18, U18; log 8). Where a list is empty the answer is a
free value of Config. `reentries` says, for each callback to come, whether it issues an
operation on this Context before it returns (43_dispatch.md R169, U5); where it is empty the
callback keeps its contract (log 15). -/
structure Answers where
  writes    : List Bool
  probes    : List Bool
  reads     : List (List Byte)
  replies   : List Message
  reentries : List Bool
deriving DecidableEq, Repr

/-- No answer scripted. -/
def Answers.unscripted : Answers :=
  { writes := [], probes := [], reads := [], replies := [], reentries := [] }

/-- The state. -/
structure State where
  /-- The implementation's parameters (00_scope.md section 3); written by nothing (log 1). -/
  params    : Params
  /-- The Context, absent or present (10_state.md R20). -/
  ctx       : Option Context
  /-- The commands and events the outside has yet to present, the next one first (log 3). -/
  inputs    : List Input
  /-- The environment's scripted answers (log 8). -/
  answers   : Answers
  /-- The calls made to the environment, the oldest first (70_reset_and_hazards.md R245). -/
  calls     : List EnvCall
  /-- The responses given, the oldest first (R245). -/
  responses : List Response
  /-- How many operations have ended: what the free values are drawn with (log 9, 27). -/
  opCount   : Nat
deriving DecidableEq, Repr

/-- The reasons the block can stop with a fault: none. "No traps" (60_exceptions.md R200): an
error is a status and the block stays usable; what the spec declines to give a meaning is a
refusal (00_scope.md R17, R206; log 22). -/
inductive Fault
deriving DecidableEq, Repr

/-- The reasons an operation is refused: 00_scope.md R17 (c), the list of
93_implementation_defined.md. Each is safe: a refused operation has no successor state, so
nothing can be proved of a run that contains one. -/
inductive Refusal where
  /-- `exec`, for an instruction without a meaning. No arm raises it. Safe. -/
  | notModelled (mnemonic : String)
  /-- `step`, on a command with no command code. The port is the model's (log 4). Safe. -/
  | noCommandCode
  /-- `step`, on a code outside R82's table, and `APPEND_U24` where `CURSOR_HAS_U24` is false
  (R84, R114, U1). Safe. -/
  | unassignedCommand (code : Byte)
  /-- `step`, on operand beats that are missing or no value of their operand. The port is the
  model's (log 4). Safe. -/
  | malformedOperands (code : Byte)
  /-- An operation that needs the Context while it is absent (R20, R206, R231, U2). Safe. -/
  | contextAbsent
  /-- `RECEIVE`, `REQUEST` and every arriving frame on a CONTROLLER, `SEND` and `SCAN` on a
  PERIPHERAL (R170, R215, U3). Safe. -/
  | wrongRole
  /-- An increment of `crc_error_count` at its maximum, unless the parameter says wrap or
  saturate (R9, U4; log 13). Safe. -/
  | counterAtTop
  /-- A callback that issued an operation on the same Context (R169, R234, U5). Safe. -/
  | reentered
  /-- `REGISTER` with the callback `NONE` (R152, U6). Safe. -/
  | noneCallback
  /-- `CTX_READ` with a selector above 7 (R38, R155, U7). Safe. -/
  | unknownSelector (sel : Byte)
  /-- `ENV.read` answering more bytes than it was asked for (U9). Safe. -/
  | answerOutsideType
  /-- `step`, on parameters outside their legal ranges (U10). Safe. -/
  | illegalParameters
deriving DecidableEq, Repr

/-- The state after hardware reset: the Context absent (70_reset_and_hazards.md R230), no
operation taken, none waiting; the parameters at their defaults (00_scope.md R7 to R13). -/
def State.reset : State :=
  { params := Params.default, ctx := none, inputs := [], answers := Answers.unscripted,
    calls := [], responses := [], opCount := 0 }

end Sys2Proof.Machine
end

