-- ==== Sys2Proof/Machine/Crc.lean ====
section
/-! DEFINITION. The CRC engine's function (40_crc.md R100 to R106), in the three forms the
spec gives, and which of them computes (00_scope.md R13). -/

namespace Sys2Proof.Machine

open Sys2Proof

/-- One shift of R102's inner loop. -/
def crcShift (c : Byte) : Byte := if c.msb then (c <<< 1) ^^^ 0x07#8 else c <<< 1

/-- `n` shifts. -/
def crcShifts : Nat → Byte → Byte
  | 0, c => c
  | n + 1, c => crcShifts n (crcShift c)

/-- The register after one byte, bit by bit (R102). -/
def crcBitStep (c b : Byte) : Byte := crcShifts 8 (c ^^^ b)

/-- The reference CRC, bit by bit (R102). -/
def crcBits (s : List Byte) : Byte := s.foldl crcBitStep 0

/-- One 4-bit step (R104): the high nibble of the register selects the table entry. -/
def crcNibbleHalf (c : Byte) : Byte := (c <<< 4) ^^^ Config.crcNibbleTable.getD (c >>> 4).toNat 0

/-- The register after one byte, high nibble first (R104). -/
def crcNibbleStep (c b : Byte) : Byte := crcNibbleHalf (crcNibbleHalf (c ^^^ b))

/-- The CRC by the 16-entry table (R104). -/
def crcNibbles (s : List Byte) : Byte := s.foldl crcNibbleStep 0

/-- The register after one byte, by the 256-entry table (R105). -/
def crcByteStep (c b : Byte) : Byte := Config.crcByteTable.getD (c ^^^ b).toNat 0

/-- The CRC by the 256-entry table (R105). -/
def crcBytes (s : List Byte) : Byte := s.foldl crcByteStep 0

/-- `crc8(s)` (R100), by the table the implementation has (R13). -/
def crc8 (impl : CrcImpl) (s : List Byte) : Byte :=
  match impl with
  | .nibble => crcNibbles s
  | .byte => crcBytes s

end Sys2Proof.Machine
end

