-- ==== Sys2Proof/Machine/Flags.lean ====
section
/-! DEFINITION. The one flag that lasts, `last_crc_ok`, and the counter that moves with it
(10_state.md R34, R35, R42; 42_codec.md R136). -/

namespace Sys2Proof.Machine

open Sys2Proof

/-- A successful decode against the Context (R136): the flag set, the counter unchanged. -/
def recordSuccess (c : Context) : Context := { c with lastCrcOk := true }

/-- A failed decode against the Context (R136): the flag cleared, the counter up by one; at
the counter's maximum, what the parameter says (U4; log 13). -/
def recordFailure (p : Params) (c : Context) : Except Refusal Context :=
  if c.crcErrorCount < p.counterMax then
    .ok { c with crcErrorCount := c.crcErrorCount + 1, lastCrcOk := false }
  else
    match p.counterTop with
    | .refuse => .error .counterAtTop
    | .wrap => .ok { c with crcErrorCount := 0, lastCrcOk := false }
    | .saturate => .ok { c with lastCrcOk := false }

end Sys2Proof.Machine
end

