-- ==== Sys2Proof/Machine/Operands.lean ====
section
/-! DEFINITION. The forms of operands and results: buffers with a length (10_state.md R46),
payloads (R25), the numbers of statuses, roles and fields (30_encoding.md R83, R85, R38). -/

namespace Sys2Proof.Machine

open Sys2Proof

/-- The first `n` bytes of a buffer, as operation `op` finds them: a byte the buffer does not
hold is free (70_reset_and_hazards.md R237, 10_state.md R25; log 10, 12). -/
def window (op : Nat) (buf : List Byte) (n : Nat) : List Byte :=
  buf.take n ++ (List.range' buf.length (n - buf.length)).map (Config.freeByte op)

/-- The payload in use, `data[0 .. data_len)` (R25). -/
def payload (op : Nat) (m : Message) : List Byte := window op m.data m.dataLen.toNat

/-- The status byte of a response (R83). -/
def Status.statusCode : Status → Byte
  | .ok => 0x00
  | .writeFailed => 0x01
  | .tooShort => 0x02
  | .declaredLenOverCapacity => 0x02
  | .truncated => 0x02
  | .crcMismatch => 0x02
  | .payloadFull => 0x03
  | .bufferTooSmall => 0x03
  | .tableFull => 0x03
  | .lenOverCapacity => 0x03
  | .readOutOfRange => 0x04

/-- The cause byte of a response (R83). -/
def Status.causeCode : Status → Byte
  | .ok => 0
  | .writeFailed => 1
  | .tooShort => 1
  | .declaredLenOverCapacity => 2
  | .truncated => 3
  | .crcMismatch => 4
  | .payloadFull => 1
  | .bufferTooSmall => 2
  | .tableFull => 3
  | .lenOverCapacity => 4
  | .readOutOfRange => 1

/-- The field that a selector of `CTX_READ` names, at its own width (R38). -/
def fieldValue (sel : Nat) (c : Context) : Option Result :=
  match sel with
  | 0 => some (.bit (roleBit c.role))
  | 1 => some (.byte c.address)
  | 2 => some (.count c.handlerCount)
  | 3 => some (.byte c.requestedOpcode)
  | 4 => some (.count c.crcErrorCount)
  | 5 => some (.bit c.lastCrcOk)
  | 6 => some (.token c.onMessage)
  | 7 => some (.token c.onRequest)
  | _ => none

/-- `MSG_INIT` (41_cursor.md R111): length 0, nothing held, `crc8` without a defined value
(U8; log 11). -/
def emptyMessage (op : Nat) (typeId opcode : Byte) : Message :=
  { typeId := typeId, opcode := opcode, dataLen := 0, data := [], crc8 := Config.freeCrc op }

end Sys2Proof.Machine
end

