-- ==== Sys2Proof/Machine/Ops.lean ====
section
/-! DEFINITION. The shared operations: how an operation ends, how it reaches the Context and
the environment, the codec, the handler table, and the two paths that more than one
instruction takes. The block has no traps (60_exceptions.md R200), so there is no exception
to take and none to return from (R213, R214): what stands in that place is `respond` with an
error status. -/

namespace Sys2Proof.Machine

open Sys2Proof

/-- What a step of the block answers. -/
abbrev Result3 := Host.Outcome State Fault Refusal

/-! ## Updates of the state -/

/-- The Context written. -/
def State.setCtx (s : State) (c : Context) : State := { s with ctx := some c }

/-- The inputs still to come written. -/
def State.setInputs (s : State) (is : List Input) : State := { s with inputs := is }

/-- The scripted answers written. -/
def State.setAnswers (s : State) (a : Answers) : State := { s with answers := a }

/-- Calls to the environment recorded, in the order they were made (R245). -/
def State.addCalls (s : State) (cs : List EnvCall) : State := { s with calls := s.calls ++ cs }

/-- A response given (R245), and the operation counted. -/
def State.addResponse (s : State) (r : Response) : State :=
  { s with responses := s.responses ++ [r], opCount := s.opCount + 1 }

/-- The state after an operation that ended with this status and these results. -/
def State.answered (s : State) (st : Status) (r : Result) : State :=
  s.addResponse { status := st, result := r }

/-- The end of an operation that is not refused (00_scope.md R17 (a), (b); R83). -/
def respond (s : State) (st : Status) (r : Result) : Result3 := .next (s.answered st r)

/-! ## The Context -/

/-- An operation that needs the Context (R206, R231, U2). -/
def withContext (s : State) (k : Context → Result3) : Result3 :=
  match s.ctx with
  | none => .refused .contextAbsent
  | some c => k c

/-- An operation of one role (43_dispatch.md R170, U3). -/
def withRole (role : Role) (s : State) (k : Context → Result3) : Result3 :=
  withContext s fun c => if c.role = role then k c else .refused .wrongRole

/-- The Context that `CTX_INIT` makes (10_state.md R47). -/
def freshContext (p : Params) (role : Role) (address : Byte) : Context :=
  { role := role, address := address, handlerTable := List.replicate p.hcap Slot.zero,
    handlerCount := 0, requestedOpcode := 0, crcErrorCount := 0, lastCrcOk := false,
    onMessage := Cb.NONE, onRequest := Cb.NONE }

/-- The slots in use, in registration order (R31). -/
def Context.used (c : Context) : List Slot := c.handlerTable.take c.handlerCount

/-- The lookup: the first slot in use with the opcode (43_dispatch.md R158). -/
def Context.lookup (c : Context) (opcode : Byte) : Option Slot :=
  c.used.find? fun sl => sl.opcode == opcode

/-- `REGISTER`'s write of the table (R152): the slot of a duplicate replaced where it stands,
else the next free slot taken, else the table is full and nothing changes. -/
def Context.registered (p : Params) (c : Context) (sl : Slot) : Option Context :=
  match c.used.findIdx? fun u => u.opcode == sl.opcode with
  | some i => some { c with handlerTable := c.handlerTable.set i sl }
  | none =>
    if c.handlerCount ≥ p.hcap then none
    else some { c with
      handlerTable := c.handlerTable.set c.handlerCount sl
      handlerCount := c.handlerCount + 1 }

/-! ## The environment -/

/-- The next answer of `ENV.write`. -/
def Answers.popWrite (a : Answers) (free : Bool) : Bool × Answers :=
  match a.writes with
  | [] => (free, a)
  | b :: bs => (b, { a with writes := bs })

/-- The next answer of `ENV.probe`. -/
def Answers.popProbe (a : Answers) (free : Bool) : Bool × Answers :=
  match a.probes with
  | [] => (free, a)
  | b :: bs => (b, { a with probes := bs })

/-- The next answer of `ENV.read`. -/
def Answers.popRead (a : Answers) (free : List Byte) : List Byte × Answers :=
  match a.reads with
  | [] => (free, a)
  | b :: bs => (b, { a with reads := bs })

/-- The next answer of `ENV.on_request`. -/
def Answers.popReply (a : Answers) (free : Message) : Message × Answers :=
  match a.replies with
  | [] => (free, a)
  | m :: ms => (m, { a with replies := ms })

/-- Whether the next callback issues an operation on the Context before it returns. -/
def Answers.popReentry (a : Answers) : Bool × Answers :=
  match a.reentries with
  | [] => (false, a)
  | b :: bs => (b, { a with reentries := bs })

/-- A callback (43_dispatch.md R169): the call is recorded; one that re-enters the block spoils
the run (U5; log 15); one that returns lets the operation go on. -/
def withCallback (s : State) (call : EnvCall) (k : State → Result3) : Result3 :=
  if s.answers.popReentry.1 then .refused .reentered
  else k ((s.setAnswers s.answers.popReentry.2).addCalls [call])

/-! ## The codec -/

/-- `ENCODE` (42_codec.md R131, R132) of a Message whose payload in use is `data`. -/
def encodeFrame (p : Params) (m : Message) (data : List Byte) (outCapacity : Nat) :
    Except Status (List Byte) :=
  if m.dataLen.toNat > p.maxPayload then .error .lenOverCapacity
  else if outCapacity < 3 + m.dataLen.toNat + 1 then .error .bufferTooSmall
  else
    let body := m.typeId :: m.opcode :: m.dataLen :: data
    .ok (body ++ [crc8 p.crcImpl body])

/-- `DECODE` (R134, R135) of the bytes present; it reads none beyond them (R138). -/
def decodeFrame (p : Params) (present : List Byte) : Except Status Message :=
  if present.length < 4 then .error .tooShort
  else
    let n := (present.getD 2 0).toNat
    if n > p.maxPayload then .error .declaredLenOverCapacity
    else if present.length < 3 + n + 1 then .error .truncated
    else if crc8 p.crcImpl (present.take (3 + n)) ≠ present.getD (3 + n) 0 then .error .crcMismatch
    else
      .ok { typeId := present.getD 0 0, opcode := present.getD 1 0, dataLen := present.getD 2 0,
            data := (present.drop 3).take n, crc8 := present.getD (3 + n) 0 }

/-! ## The payload cursor -/

/-- What every append does (41_cursor.md R116): the test first, over the natural numbers; then
the `w` bytes at `data_len` and the length. Nothing on failure. -/
def appendLe (p : Params) (op : Nat) (m : Message) (w v : Nat) : Option Message :=
  if m.dataLen.toNat + w > p.maxPayload then none
  else some { m with
    dataLen := BitVec.ofNat 8 (m.dataLen.toNat + w)
    data := payload op m ++ leBytes w v }

/-- The end of an append: the new Message, or the old one with `PAYLOAD_FULL` (R112, R116). -/
def appendTo (s : State) (m : Message) (w v : Nat) : Result3 :=
  match appendLe s.params s.opCount m w v with
  | none => respond s .payloadFull (.message m)
  | some m' => respond s .ok (.message m')

/-- What every read does (R120): the test first, over the natural numbers; then the `w` bytes
at `offset`, least significant first. -/
def readLe (op : Nat) (buf : List Byte) (len offset : Byte) (w : Nat) : Option Nat :=
  if offset.toNat + w > len.toNat then none
  else some (leValue (((window op buf len.toNat).drop offset.toNat).take w))

/-! ## The receive path -/

/-- Steps 3 to 6 of the receive path (43_dispatch.md R156 to R162), for a Message that was
decoded: SET_REPLY, else the handler of the opcode, else `on_message`, else nothing. -/
def dispatchMessage (s : State) (c : Context) (m : Message) : Result3 :=
  if m.opcode = 0xFE#8 then
    if 1 ≤ m.dataLen.toNat then
      respond (s.setCtx { c with requestedOpcode := m.data.headD 0 }) .ok .none
    else respond s .ok .none
  else
    match c.lookup m.opcode with
    | some sl =>
      withCallback s (.handler sl.cb m.opcode m.data m.dataLen sl.ud) fun s' => respond s' .ok .none
    | none =>
      if c.onMessage ≠ Cb.NONE then
        withCallback s (.onMessage c.onMessage m) fun s' => respond s' .ok .none
      else respond s .ok .none

/-- The peripheral receive path (43_dispatch.md R156) on the bytes present. -/
def receivePath (s : State) (present : List Byte) : Result3 :=
  withRole .peripheral s fun c =>
    match decodeFrame s.params present with
    | .error _ =>
      match recordFailure s.params c with
      | .error r => .refused r
      | .ok c' => respond (s.setCtx c') .ok .none
    | .ok m => dispatchMessage (s.setCtx (recordSuccess c)) (recordSuccess c) m

/-! ## The scanner -/

/-- What `SCAN` works with (10_state.md R44): the found count, the output list, and what it
has asked and been answered so far. -/
structure ScanWork where
  count   : Nat
  found   : List Byte
  answers : Answers
  calls   : List EnvCall
deriving DecidableEq, Repr

/-- An address found (44_scanner.md R186): counted, and stored while there is room. -/
def ScanWork.add (w : ScanWork) (capacity : Nat) (a : Byte) : ScanWork :=
  { w with
    count := w.count + 1
    found := if w.count < capacity then w.found ++ [a] else w.found }

/-- Step 1 at one address (R182): the answer of the probe, and the work after it. -/
def scanProbe (op : Nat) (a : Byte) (w : ScanWork) : Bool × ScanWork :=
  let r := w.answers.popProbe (Config.freeProbe op a)
  (r.1, { w with answers := r.2, calls := w.calls ++ [.probe a] })

/-- The bus read of step 3 at one address (R184): the answer, and the work after it. -/
def scanRead (p : Params) (op : Nat) (a : Byte) (timeout : Timeout) (w : ScanWork) :
    List Byte × ScanWork :=
  let r := w.answers.popRead ((Config.freeRead op a).take p.frameMax)
  (r.1, { w with answers := r.2, calls := w.calls ++ [.read a p.frameMax timeout] })

/-- One address of the scan (R181). -/
def scanAddress (p : Params) (op : Nat) (strict : Bool) (capacity : Nat) (timeout : Timeout)
    (a : Byte) (w : ScanWork) : Except Refusal ScanWork :=
  let r := scanProbe op a w
  if r.1 then
    if strict then
      let q := scanRead p op a timeout r.2
      if q.1.length > p.frameMax then .error .answerOutsideType
      else
        match decodeFrame p q.1 with
        | .error _ => .ok q.2
        | .ok _ => .ok (q.2.add capacity a)
    else .ok (r.2.add capacity a)
  else .ok r.2

/-- `k` addresses from `a` upward, `a` a natural number (R187). -/
def scanFrom (p : Params) (op : Nat) (strict : Bool) (capacity : Nat) (timeout : Timeout) :
    Nat → Nat → ScanWork → Except Refusal ScanWork
  | 0, _, w => .ok w
  | k + 1, a, w =>
    match scanAddress p op strict capacity timeout (BitVec.ofNat 8 a) w with
    | .error r => .error r
    | .ok w' => scanFrom p op strict capacity timeout k (a + 1) w'

end Sys2Proof.Machine
end

