-- ==== Sys2Proof/Machine/Codec.lean ====
section
/-! DEFINITION. The CRC engine as an operation (40_crc.md R107) and the message codec
(42_codec.md): CRC8, ENCODE, DECODE. -/

namespace Sys2Proof.Machine

open Sys2Proof

/-- `CRC8` (R107). -/
def execCrc8 (bytes : List Byte) (s : State) : Result3 :=
  respond s .ok (.byte (crc8 s.params.crcImpl bytes))

/-- `ENCODE` (R131, R132): a failure writes zero bytes. -/
def execEncode (m : Message) (outCapacity : Nat) (s : State) : Result3 :=
  match encodeFrame s.params m (payload s.opCount m) outCapacity with
  | .error st => respond s st (.frame 0 [])
  | .ok bytes => respond s .ok (.frame bytes.length bytes)

/-- The end of a `DECODE` with no Context (R136: nothing is updated). -/
def decodeAlone (s : State) (present : List Byte) : Result3 :=
  match decodeFrame s.params present with
  | .error st => respond s st .none
  | .ok m => respond s .ok (.message m)

/-- The end of a `DECODE` against the Context: the statistics move exactly once (R136). -/
def decodeAgainst (s : State) (c : Context) (present : List Byte) : Result3 :=
  match decodeFrame s.params present with
  | .error st =>
    match recordFailure s.params c with
    | .error r => .refused r
    | .ok c' => respond (s.setCtx c') st .none
  | .ok m => respond (s.setCtx (recordSuccess c)) .ok (.message m)

/-- `DECODE` (R134). -/
def execDecode (bytes : List Byte) (inLength : Nat) (useCtx : Bool) (s : State) : Result3 :=
  if useCtx then withContext s fun c => decodeAgainst s c (window s.opCount bytes inLength)
  else decodeAlone s (window s.opCount bytes inLength)

end Sys2Proof.Machine
end

