-- ==== Sys2Proof/Machine/Cursor.lean ====
section
/-! DEFINITION. The payload cursor (41_cursor.md): MSG_INIT, APPEND_*, READ_*. None of them
reads or writes the Context (R110). -/

namespace Sys2Proof.Machine

open Sys2Proof

/-- `MSG_INIT` (R111). -/
def execMsgInit (typeId opcode : Byte) (s : State) : Result3 :=
  respond s .ok (.message (emptyMessage s.opCount typeId opcode))

/-- `APPEND_U8` (R112). -/
def execAppendU8 (m : Message) (v : BitVec 8) (s : State) : Result3 := appendTo s m 1 v.toNat

/-- `APPEND_U16` (R113). -/
def execAppendU16 (m : Message) (v : BitVec 16) (s : State) : Result3 := appendTo s m 2 v.toNat

/-- `APPEND_U24` (R114): where `CURSOR_HAS_U24` is false its code is unassigned (R12, U1). -/
def execAppendU24 (m : Message) (v : BitVec 24) (s : State) : Result3 :=
  if s.params.cursorHasU24 then appendTo s m 3 v.toNat else .refused (.unassignedCommand 0x13)

/-- `APPEND_U32` (R115). -/
def execAppendU32 (m : Message) (v : BitVec 32) (s : State) : Result3 := appendTo s m 4 v.toNat

/-- `READ_U8` (R117). -/
def execReadU8 (buf : List Byte) (len offset : Byte) (s : State) : Result3 :=
  match readLe s.opCount buf len offset 1 with
  | none => respond s .readOutOfRange .none
  | some v => respond s .ok (.byte (BitVec.ofNat 8 v))

/-- `READ_U16` (R118). -/
def execReadU16 (buf : List Byte) (len offset : Byte) (s : State) : Result3 :=
  match readLe s.opCount buf len offset 2 with
  | none => respond s .readOutOfRange .none
  | some v => respond s .ok (.half (BitVec.ofNat 16 v))

/-- `READ_U32` (R119). -/
def execReadU32 (buf : List Byte) (len offset : Byte) (s : State) : Result3 :=
  match readLe s.opCount buf len offset 4 with
  | none => respond s .readOutOfRange .none
  | some v => respond s .ok (.word (BitVec.ofNat 32 v))

end Sys2Proof.Machine
end

