-- ==== Sys2Proof/Machine/Frames.lean ====
section
/-! DEFINITION. The nine classes of arriving frames (30_encoding.md R74, R89): each is the
event "bytes arrived" with a frame of its class, which the host answers by RECEIVE with the
frame's bytes (60_exceptions.md R209; log 6). -/

namespace Sys2Proof.Machine

open Sys2Proof

/-- The bytes of a frame whose header is given (R70). -/
def frameWith (t o l : Byte) (rest : List Byte) : List Byte := t :: o :: l :: rest

/-- `FRAME_GENERAL`, 0x00 to 0x7F (R74, R156). -/
def execFrameGeneral (t : Byte) (o : BitVec 7) (l : Byte) (rest : List Byte) (s : State) : Result3 :=
  receivePath s (frameWith t (classOpcode 0x00 o) l rest)

/-- `FRAME_UNCLASSIFIED_80_BF` (R77). -/
def execFrameUnclassified80BF (t : Byte) (o : BitVec 6) (l : Byte) (rest : List Byte) (s : State) : Result3 :=
  receivePath s (frameWith t (classOpcode 0x80 o) l rest)

/-- `FRAME_UNCLASSIFIED_C0_DF` (R77). -/
def execFrameUnclassifiedC0DF (t : Byte) (o : BitVec 5) (l : Byte) (rest : List Byte) (s : State) : Result3 :=
  receivePath s (frameWith t (classOpcode 0xC0 o) l rest)

/-- `FRAME_UNCLASSIFIED_E0_EF` (R77). -/
def execFrameUnclassifiedE0EF (t : Byte) (o : BitVec 4) (l : Byte) (rest : List Byte) (s : State) : Result3 :=
  receivePath s (frameWith t (classOpcode 0xE0 o) l rest)

/-- `FRAME_UNCLASSIFIED_F0_F7` (R77). -/
def execFrameUnclassifiedF0F7 (t : Byte) (o : BitVec 3) (l : Byte) (rest : List Byte) (s : State) : Result3 :=
  receivePath s (frameWith t (classOpcode 0xF0 o) l rest)

/-- `FRAME_UNCLASSIFIED_F8_FB` (R77). -/
def execFrameUnclassifiedF8FB (t : Byte) (o : BitVec 2) (l : Byte) (rest : List Byte) (s : State) : Result3 :=
  receivePath s (frameWith t (classOpcode 0xF8 o) l rest)

/-- `FRAME_UNCLASSIFIED_FC_FD` (R77). -/
def execFrameUnclassifiedFCFD (t : Byte) (o : BitVec 1) (l : Byte) (rest : List Byte) (s : State) : Result3 :=
  receivePath s (frameWith t (classOpcode 0xFC o) l rest)

/-- `FRAME_SET_REPLY`, 0xFE (R75, R157). -/
def execFrameSetReply (t : Byte) (l : Byte) (rest : List Byte) (s : State) : Result3 :=
  receivePath s (frameWith t 0xFE#8 l rest)

/-- `FRAME_RESERVED_FF`, 0xFF (R76): as a general-purpose frame. -/
def execFrameReservedFF (t : Byte) (l : Byte) (rest : List Byte) (s : State) : Result3 :=
  receivePath s (frameWith t 0xFF#8 l rest)

end Sys2Proof.Machine
end

