-- ==== Sys2Proof/Machine/Paths.lean ====
section
/-! DEFINITION. The paths of the dispatch core (43_dispatch.md sections 2 to 4): RECEIVE,
REQUEST, SEND. -/

namespace Sys2Proof.Machine

open Sys2Proof

/-- `RECEIVE` (R156). -/
def execReceive (bytes : List Byte) (inLength : Nat) (s : State) : Result3 :=
  receivePath s (window s.opCount bytes inLength)

/-- The reply of a Message (R163 step 3): its frame, or zero bytes where it does not encode
(R165); the status is OK in both. -/
def replyWith (s : State) (op : Nat) (m : Message) : Result3 :=
  match encodeFrame s.params m (payload op m) s.params.frameMax with
  | .error _ => respond s .ok (.frame 0 [])
  | .ok bytes => respond s .ok (.frame bytes.length bytes)

/-- `REQUEST` (R163, R164): the empty Message, filled by `on_request` where it is set. -/
def execRequest (s : State) : Result3 :=
  withRole .peripheral s fun c =>
    let m := emptyMessage s.opCount 0 0
    if c.onRequest ≠ Cb.NONE then
      withCallback s (.onRequest c.onRequest c.requestedOpcode m) fun s' =>
        let r := s'.answers.popReply (Config.freeReply s.opCount)
        replyWith (s'.setAnswers r.2) s.opCount r.1
    else replyWith s s.opCount m

/-- `SEND` (R166): the encode first; then exactly one `ENV.write`. -/
def execSend (dest : Byte) (m : Message) (s : State) : Result3 :=
  withRole .controller s fun _ =>
    match encodeFrame s.params m (payload s.opCount m) s.params.frameMax with
    | .error st => respond s st .none
    | .ok bytes =>
      let r := s.answers.popWrite (Config.freeWrite s.opCount)
      let s' := (s.setAnswers r.2).addCalls [.write dest bytes]
      if r.1 then respond s' .ok .none else respond s' .writeFailed .none

end Sys2Proof.Machine
end

