-- ==== Sys2Proof/Machine/Scanner.lean ====
section
/-! DEFINITION. The bus scanner (44_scanner.md): SCAN. -/

namespace Sys2Proof.Machine

open Sys2Proof

/-- `SCAN` (R181): every address of `[start, stop]` once, upward; none where the range is empty
(R187). The Context is read for its role only (R188). -/
def execScan (start stop : Byte) (strict : Bool) (capacity : Nat) (timeout : Timeout) (s : State) :
    Result3 :=
  withRole .controller s fun _ =>
    match scanFrom s.params s.opCount strict capacity timeout (stop.toNat + 1 - start.toNat)
        start.toNat { count := 0, found := [], answers := s.answers, calls := [] } with
    | .error r => .refused r
    | .ok w => respond ((s.setAnswers w.answers).addCalls w.calls) .ok (.scan w.count w.found)

end Sys2Proof.Machine
end

