-- ==== Sys2Proof/Machine/Setup.lean ====
section
/-! DEFINITION. Set-up and polling (43_dispatch.md section 1): CTX_INIT, REGISTER,
SET_ON_MESSAGE, SET_ON_REQUEST, CTX_READ. -/

namespace Sys2Proof.Machine

open Sys2Proof

/-- `CTX_INIT` (R151): whether or not a Context was present. -/
def execCtxInit (role : Role) (address : Byte) (s : State) : Result3 :=
  respond (s.setCtx (freshContext s.params role address)) .ok .none

/-- `REGISTER` (R152). -/
def execRegister (opcode : Byte) (cb : Cb) (ud : Ud) (s : State) : Result3 :=
  withContext s fun c =>
    if cb = Cb.NONE then .refused .noneCallback
    else
      match c.registered s.params { opcode := opcode, cb := cb, ud := ud } with
      | none => respond s .tableFull .none
      | some c' => respond (s.setCtx c') .ok .none

/-- `SET_ON_MESSAGE` (R153). -/
def execSetOnMessage (cb : Cb) (s : State) : Result3 :=
  withContext s fun c => respond (s.setCtx { c with onMessage := cb }) .ok .none

/-- `SET_ON_REQUEST` (R154). -/
def execSetOnRequest (cb : Cb) (s : State) : Result3 :=
  withContext s fun c => respond (s.setCtx { c with onRequest := cb }) .ok .none

/-- `CTX_READ` (R155). -/
def execCtxRead (sel : Byte) (s : State) : Result3 :=
  withContext s fun c =>
    match fieldValue sel.toNat c with
    | none => .refused (.unknownSelector sel)
    | some v => respond s .ok v

end Sys2Proof.Machine
end

