-- ==== Sys2Proof/Machine/Dispatch.lean ====
section
/-! DEFINITION. Which meaning each instruction has. -/

namespace Sys2Proof.Machine
open Sys2Proof

def exec (i : Instr) (s : State) : Host.Outcome State Fault Refusal :=
  match i with
  | .crc8 bytes => Sys2Proof.Machine.execCrc8 bytes s
  | .msgInit t o => Sys2Proof.Machine.execMsgInit t o s
  | .appendU8 m v => Sys2Proof.Machine.execAppendU8 m v s
  | .appendU16 m v => Sys2Proof.Machine.execAppendU16 m v s
  | .appendU24 m v => Sys2Proof.Machine.execAppendU24 m v s
  | .appendU32 m v => Sys2Proof.Machine.execAppendU32 m v s
  | .readU8 buf len offset => Sys2Proof.Machine.execReadU8 buf len offset s
  | .readU16 buf len offset => Sys2Proof.Machine.execReadU16 buf len offset s
  | .readU32 buf len offset => Sys2Proof.Machine.execReadU32 buf len offset s
  | .encode m cap => Sys2Proof.Machine.execEncode m cap s
  | .decode bytes len useCtx => Sys2Proof.Machine.execDecode bytes len useCtx s
  | .ctxInit role address => Sys2Proof.Machine.execCtxInit role address s
  | .register o cb ud => Sys2Proof.Machine.execRegister o cb ud s
  | .setOnMessage cb => Sys2Proof.Machine.execSetOnMessage cb s
  | .setOnRequest cb => Sys2Proof.Machine.execSetOnRequest cb s
  | .ctxRead sel => Sys2Proof.Machine.execCtxRead sel s
  | .receive bytes len => Sys2Proof.Machine.execReceive bytes len s
  | .request => Sys2Proof.Machine.execRequest s
  | .send dest m => Sys2Proof.Machine.execSend dest m s
  | .scan start stop strict cap timeout => Sys2Proof.Machine.execScan start stop strict cap timeout s
  | .frameGeneral t o l rest => Sys2Proof.Machine.execFrameGeneral t o l rest s
  | .frameUnclassified80BF t o l rest => Sys2Proof.Machine.execFrameUnclassified80BF t o l rest s
  | .frameUnclassifiedC0DF t o l rest => Sys2Proof.Machine.execFrameUnclassifiedC0DF t o l rest s
  | .frameUnclassifiedE0EF t o l rest => Sys2Proof.Machine.execFrameUnclassifiedE0EF t o l rest s
  | .frameUnclassifiedF0F7 t o l rest => Sys2Proof.Machine.execFrameUnclassifiedF0F7 t o l rest s
  | .frameUnclassifiedF8FB t o l rest => Sys2Proof.Machine.execFrameUnclassifiedF8FB t o l rest s
  | .frameUnclassifiedFCFD t o l rest => Sys2Proof.Machine.execFrameUnclassifiedFCFD t o l rest s
  | .frameSetReply t l rest => Sys2Proof.Machine.execFrameSetReply t l rest s
  | .frameReservedFF t l rest => Sys2Proof.Machine.execFrameReservedFF t l rest s

end Sys2Proof.Machine
end

