-- ==== Sys2Proof/Machine/Step.lean ====
section
/-! DEFINITION. One step: the next input is taken, decoded and run to its end
(00_scope.md R6, 20_memory.md R64). -/

namespace Sys2Proof.Machine

open Sys2Proof

/-- The refusal of an input that is no instruction. -/
def refusalOf : DecodeReject → Refusal
  | .noCommandCode => .noCommandCode
  | .unassignedCommand code => .unassignedCommand code
  | .malformedOperands code => .malformedOperands code

/-- One step. Parameters outside their ranges build no model (U10). With no input the endpoint
is idle and keeps its state (60_exceptions.md R220; log 21). -/
def step (s : State) : Host.Outcome State Fault Refusal :=
  if s.params.legal then
    match s.inputs with
    | [] => .next s
    | input :: rest =>
      match decode input with
      | .error e => .refused (refusalOf e)
      | .ok i => exec i (s.setInputs rest)
  else .refused .illegalParameters

/-- The state with a word of the opcode table as its next input (log 3). -/
def State.withFetchWord (s : State) (nbits w : Nat) : State :=
  s.setInputs (tableInput nbits w :: s.inputs)

end Sys2Proof.Machine
end

