-- ==== Sys2Proof/Machine/Pseudo.lean ====
section
/-! DEFINITION. The pseudo-operations (30_encoding.md R87): sequences of operations that the
host issues, and, in QUERY, a bus read that the host makes (log 26). The block has no command
code for them, so they are no instructions; each is written over the meanings it expands to. -/

namespace Sys2Proof.Machine

open Sys2Proof

/-- The response of the operation that ended last. -/
def State.lastResponse (s : State) : Option Response := s.responses.getLast?

/-- The Message the last operation answered, if it answered one and ended `OK`. -/
def State.lastMessage (s : State) : Option Message :=
  match s.lastResponse with
  | some { status := .ok, result := .message m } => some m
  | _ => none

/-- The host goes on with the Message of an operation that ended `OK`, and else stops with its
status (R87). -/
def thenMessage (r : Result3) (k : Message → State → Result3) : Result3 :=
  match r with
  | .next s =>
    match s.lastMessage with
    | some m => k m s
    | none => .next s
  | .fault f => .fault f
  | .refused r => .refused r

/-- The host goes on after an operation that ended `OK`. -/
def thenOk (r : Result3) (k : State → Result3) : Result3 :=
  match r with
  | .next s => if s.lastResponse.map Response.status = some .ok then k s else .next s
  | .fault f => .fault f
  | .refused r => .refused r

/-- `MSG_SET_REPLY t, op` (R87): the SET_REPLY message of R75. -/
def pseudoMsgSetReply (typeId op : Byte) (s : State) : Result3 :=
  thenMessage (execMsgInit typeId 0xFE#8 s) fun m s' => execAppendU8 m op s'

/-- A value of `BUILD`, with its width (R87). -/
inductive BuildValue where
  | u8 (v : BitVec 8)
  | u16 (v : BitVec 16)
  | u24 (v : BitVec 24)
  | u32 (v : BitVec 32)
deriving DecidableEq, Repr

/-- The append of a value of `BUILD`. -/
def appendValue (v : BuildValue) (m : Message) (s : State) : Result3 :=
  match v with
  | .u8 v => execAppendU8 m v s
  | .u16 v => execAppendU16 m v s
  | .u24 v => execAppendU24 m v s
  | .u32 v => execAppendU32 m v s

/-- The appends of `BUILD`, in order; it stops at the first that fails. -/
def appendValues : List BuildValue → Result3 → Result3
  | [], r => r
  | v :: vs, r => appendValues vs (thenMessage r (appendValue v))

/-- `BUILD t, op, v1:w1, ..` (R87). -/
def pseudoBuild (typeId op : Byte) (vs : List BuildValue) (s : State) : Result3 :=
  appendValues vs (execMsgInit typeId op s)

/-- The bus read that the host makes in `QUERY`, and the decode of its bytes against the
Context (R87, 43_dispatch.md R167). -/
def hostReadAndDecode (dest : Byte) (timeout : Timeout) (s : State) : Result3 :=
  let r := s.answers.popRead ((Config.freeRead s.opCount dest).take s.params.frameMax)
  if r.1.length > s.params.frameMax then .refused .answerOutsideType
  else
    execDecode r.1 r.1.length true
      ((s.setAnswers r.2).addCalls [.read dest s.params.frameMax timeout])

/-- `QUERY dest, t, op, timeout` (R87): stage, then read and decode. -/
def pseudoQuery (dest typeId op : Byte) (timeout : Timeout) (s : State) : Result3 :=
  thenMessage (pseudoMsgSetReply typeId op s) fun m s' =>
    thenOk (execSend dest m s') (hostReadAndDecode dest timeout)

end Sys2Proof.Machine
end

