-- ==== Sys2Proof/Safety.lean ====
section
/-! DEFINITION. The terms claims are stated in: what a sound state is, what a frame is, which
instructions take the receive path, what a device on the bus is. -/

namespace Sys2Proof

/-- The payload in use is all held (10_state.md R25): the record was filled as far as its
length says. -/
def Message.Held (m : Message) : Prop := m.dataLen.toNat ≤ m.data.length

/-- A valid Message (10_state.md R24). -/
def Message.Valid (p : Params) (m : Message) : Prop := m.dataLen.toNat ≤ p.maxPayload

end Sys2Proof

namespace Sys2Proof.Machine

open Sys2Proof

/-- What every operation keeps of a Context (10_state.md R30 to R32, R34, R47): the table has
its `HCAP` slots, the count is within it, the opcodes in use are pairwise different, no slot
in use has the callback `NONE`, the free slots are as the reset left them, and the counter is
within its width. -/
structure Context.Wf (p : Params) (c : Context) : Prop where
  tableSize : c.handlerTable.length = p.hcap
  countInTable : c.handlerCount ≤ p.hcap
  opcodesDistinct : (c.used.map Slot.opcode).Nodup
  callbacksSet : ∀ sl ∈ c.used, sl.cb ≠ Cb.NONE
  freeSlotsZero : ∀ sl ∈ c.handlerTable.drop c.handlerCount, sl = Slot.zero
  counterInWidth : c.crcErrorCount ≤ p.counterMax

/-- The invariant of the model: legal parameters (U10), one response for every operation that
ended (R83), and a well-formed Context where there is one. -/
structure State.Inv (s : State) : Prop where
  paramsLegal : s.params.legal = true
  answeredOnce : s.responses.length = s.opCount
  ctxWf : ∀ c, s.ctx = some c → c.Wf s.params

/-- The scripted answers of `ENV.read` are of its type (00_scope.md R18, U9). -/
def State.AnswersInType (s : State) : Prop := ∀ b ∈ s.answers.reads, b.length ≤ s.params.frameMax

/-- The next callback keeps its contract: it does not issue an operation on this Context
(43_dispatch.md R169). -/
def State.CallbackReturns (s : State) : Prop := s.answers.popReentry.1 = false

/-- The state after a callback that returned: its call recorded, its entry in the script used. -/
def State.afterCallback (s : State) (call : EnvCall) : State :=
  (s.setAnswers s.answers.popReentry.2).addCalls [call]

/-- The bytes begin with a legal frame (30_encoding.md R70, R71; 42_codec.md R139): header,
payload, the CRC of both by the reference definition of 40_crc.md R102, then whatever follows
(R137). -/
def IsFrame (p : Params) (present : List Byte) (t o l : Byte) (data : List Byte) : Prop :=
  data.length = l.toNat ∧ l.toNat ≤ p.maxPayload ∧
    ∃ extra, present = t :: o :: l :: (data ++ crcBits (t :: o :: l :: data) :: extra)

/-- The bytes that an instruction of the receive path presents: RECEIVE its `in_length` bytes,
an arriving frame its header and the rest. None for every other instruction. -/
def presented (op : Nat) : Instr → Option (List Byte)
  | .receive bytes inLength => some (window op bytes inLength)
  | .frameGeneral t o l rest => some (t :: classOpcode 0x00 o :: l :: rest)
  | .frameUnclassified80BF t o l rest => some (t :: classOpcode 0x80 o :: l :: rest)
  | .frameUnclassifiedC0DF t o l rest => some (t :: classOpcode 0xC0 o :: l :: rest)
  | .frameUnclassifiedE0EF t o l rest => some (t :: classOpcode 0xE0 o :: l :: rest)
  | .frameUnclassifiedF0F7 t o l rest => some (t :: classOpcode 0xF0 o :: l :: rest)
  | .frameUnclassifiedF8FB t o l rest => some (t :: classOpcode 0xF8 o :: l :: rest)
  | .frameUnclassifiedFCFD t o l rest => some (t :: classOpcode 0xFC o :: l :: rest)
  | .frameSetReply t l rest => some (t :: 0xFE#8 :: l :: rest)
  | .frameReservedFF t l rest => some (t :: 0xFF#8 :: l :: rest)
  | .crc8 _ => none
  | .msgInit _ _ => none
  | .appendU8 _ _ => none
  | .appendU16 _ _ => none
  | .appendU24 _ _ => none
  | .appendU32 _ _ => none
  | .readU8 _ _ _ => none
  | .readU16 _ _ _ => none
  | .readU32 _ _ _ => none
  | .encode _ _ => none
  | .decode _ _ _ => none
  | .ctxInit _ _ => none
  | .register _ _ _ => none
  | .setOnMessage _ => none
  | .setOnRequest _ => none
  | .ctxRead _ => none
  | .request => none
  | .send _ _ => none
  | .scan _ _ _ _ _ => none

/-- Why the bytes present are no legal frame: the first test of 42_codec.md R135 that they
fail, in R212's order. -/
def FrameFault (p : Params) (present : List Byte) (st : Status) : Prop :=
  (st = .tooShort ∧ present.length < 4) ∨
  (st = .declaredLenOverCapacity ∧ 4 ≤ present.length ∧ p.maxPayload < (present.getD 2 0).toNat) ∨
  (st = .truncated ∧ 4 ≤ present.length ∧ (present.getD 2 0).toNat ≤ p.maxPayload ∧
    present.length < 4 + (present.getD 2 0).toNat) ∨
  (st = .crcMismatch ∧ 4 ≤ present.length ∧ (present.getD 2 0).toNat ≤ p.maxPayload ∧
    4 + (present.getD 2 0).toNat ≤ present.length ∧ ∀ t o l data, ¬ IsFrame p present t o l data)

/-- The codec accepts the bytes (44_scanner.md R184: the test of a strict scan). -/
def conforms (p : Params) (present : List Byte) : Bool :=
  match decodeFrame p present with
  | .ok _ => true
  | .error _ => false

/-- One bit of one byte of a sequence inverted (40_crc.md R108 (d), 42_codec.md R141). -/
def flipBit (s : List Byte) (i k : Nat) : List Byte := s.set i (s.getD i 0 ^^^ (1#8 <<< k))

/-- The Message after an append of these bytes (41_cursor.md R116 (d)); its `crc8`, which U8
leaves open, is kept (log 11). -/
def appended (s : State) (m : Message) (bytes : List Byte) : Message :=
  { m with dataLen := m.dataLen + BitVec.ofNat 8 bytes.length
           data := payload s.opCount m ++ bytes }

/-- The frame of a Message (42_codec.md R131), as operation `op` reads its payload, with the
CRC by the reference definition. -/
def frameBytes (op : Nat) (m : Message) : List Byte :=
  m.typeId :: m.opcode :: m.dataLen ::
    (payload op m ++ [crcBits (m.typeId :: m.opcode :: m.dataLen :: payload op m)])

/-- Every read that is legal on one Message gives the same value on the other (R122). -/
def KeepsReads (m m' : Message) : Prop :=
  ∀ (s : State) (off : Byte) (r : Result),
    (exec (.readU8 m.data m.dataLen off) s = .next (s.answered .ok r) →
      exec (.readU8 m'.data m'.dataLen off) s = .next (s.answered .ok r)) ∧
    (exec (.readU16 m.data m.dataLen off) s = .next (s.answered .ok r) →
      exec (.readU16 m'.data m'.dataLen off) s = .next (s.answered .ok r)) ∧
    (exec (.readU32 m.data m.dataLen off) s = .next (s.answered .ok r) →
      exec (.readU32 m'.data m'.dataLen off) s = .next (s.answered .ok r))

/-- The instruction creates the Context anew (43_dispatch.md R151). -/
def initsContext (i : Instr) : Prop := ∃ r a, i = .ctxInit r a

/-- The instruction may write the handler table of a present Context (10_state.md R39). -/
def registers (i : Instr) : Prop := ∃ o cb ud, i = .register o cb ud

/-- The instruction takes the receive path (43_dispatch.md R156): RECEIVE and every arriving
frame. -/
def receives (i : Instr) : Prop := ∃ present, presented 0 i = some present

/-- The instruction decodes against the Context (R39, 42_codec.md R136): DECODE told so, and
every instruction of the receive path. -/
def decodesAgainst (i : Instr) : Prop := (∃ bytes n, i = .decode bytes n true) ∨ receives i

/-- The operations that need no Context (70_reset_and_hazards.md R231). -/
def needsNoContext : Instr → Bool
  | .crc8 _ => true
  | .msgInit _ _ => true
  | .appendU8 _ _ => true
  | .appendU16 _ _ => true
  | .appendU24 _ _ => true
  | .appendU32 _ _ => true
  | .readU8 _ _ _ => true
  | .readU16 _ _ _ => true
  | .readU32 _ _ _ => true
  | .encode _ _ => true
  | .decode _ _ useCtx => !useCtx
  | .ctxInit _ _ => false
  | .register _ _ _ => false
  | .setOnMessage _ => false
  | .setOnRequest _ => false
  | .ctxRead _ => false
  | .receive _ _ => false
  | .request => false
  | .send _ _ => false
  | .scan _ _ _ _ _ => false
  | .frameGeneral _ _ _ _ => false
  | .frameUnclassified80BF _ _ _ _ => false
  | .frameUnclassifiedC0DF _ _ _ _ => false
  | .frameUnclassifiedE0EF _ _ _ _ => false
  | .frameUnclassifiedF0F7 _ _ _ _ => false
  | .frameUnclassifiedF8FB _ _ _ _ => false
  | .frameUnclassifiedFCFD _ _ _ _ => false
  | .frameSetReply _ _ _ => false
  | .frameReservedFF _ _ _ => false

/-- The statuses an operation can end with: the table of 60_exceptions.md R207. An arriving
frame is a RECEIVE there. -/
def statusesOf : Instr → List Status
  | .crc8 _ => [.ok]
  | .msgInit _ _ => [.ok]
  | .appendU8 _ _ => [.ok, .payloadFull]
  | .appendU16 _ _ => [.ok, .payloadFull]
  | .appendU24 _ _ => [.ok, .payloadFull]
  | .appendU32 _ _ => [.ok, .payloadFull]
  | .readU8 _ _ _ => [.ok, .readOutOfRange]
  | .readU16 _ _ _ => [.ok, .readOutOfRange]
  | .readU32 _ _ _ => [.ok, .readOutOfRange]
  | .encode _ _ => [.ok, .lenOverCapacity, .bufferTooSmall]
  | .decode _ _ _ => [.ok, .tooShort, .declaredLenOverCapacity, .truncated, .crcMismatch]
  | .ctxInit _ _ => [.ok]
  | .register _ _ _ => [.ok, .tableFull]
  | .setOnMessage _ => [.ok]
  | .setOnRequest _ => [.ok]
  | .ctxRead _ => [.ok]
  | .receive _ _ => [.ok]
  | .request => [.ok]
  | .send _ _ => [.ok, .lenOverCapacity, .writeFailed]
  | .scan _ _ _ _ _ => [.ok]
  | .frameGeneral _ _ _ _ => [.ok]
  | .frameUnclassified80BF _ _ _ _ => [.ok]
  | .frameUnclassifiedC0DF _ _ _ _ => [.ok]
  | .frameUnclassifiedE0EF _ _ _ _ => [.ok]
  | .frameUnclassifiedF0F7 _ _ _ _ => [.ok]
  | .frameUnclassifiedF8FB _ _ _ _ => [.ok]
  | .frameUnclassifiedFCFD _ _ _ _ => [.ok]
  | .frameSetReply _ _ _ => [.ok]
  | .frameReservedFF _ _ _ => [.ok]

/-- The addresses of a scan's range, upward (44_scanner.md R187). -/
def scanRange (start stop : Byte) : List Byte :=
  (List.range' start.toNat (stop.toNat + 1 - start.toNat)).map (BitVec.ofNat 8)

/-- The devices of a bus for one scan: an address acknowledges when it has a device, which
answers a read with the given bytes. The scripted answers of a state begin with what such a
bus answers to a scan of the addresses. -/
def State.busAnswers (s : State) (addrs : List Byte) (dev : List (Byte × List Byte))
    (strict : Bool) (after : Answers) : Prop :=
  s.answers.probes = addrs.map (fun a => (dev.lookup a).isSome) ++ after.probes ∧
  s.answers.reads = (if strict then addrs.filterMap (fun a => dev.lookup a) else []) ++ after.reads ∧
  s.answers.writes = after.writes ∧ s.answers.replies = after.replies ∧
  s.answers.reentries = after.reentries

/-- The run of `n` steps from a state meets no refusal (00_scope.md R17: a run that contains
one has no result). -/
def SafeFor (n : Nat) (s : State) : Prop := ∃ t, Host.Core.run Sys2Proof.core n s = .next t

end Sys2Proof.Machine
end

