-- ==== Sys2Proof/Certificates/Slice0/Obligations.lean ====
section
/-! DEFINITION. The statements for the provers. Each says what it states in its name and its
docstring; what it cites stands in OBLIGATIONS.json. -/

open Sys2Proof Sys2Proof.Machine

/-! ## The CRC engine -/

/-- CRC8 answers the CRC of 40_crc.md R102 whichever table the implementation has, in every
state, the Context absent or present, and changes nothing else (R107). -/
def Obligations.Crc8AnswersReferenceCrc : Prop :=
  ∀ (bytes : List Byte) (s : State),
    exec (.crc8 bytes) s = .next (s.answered .ok (.byte (crcBits bytes)))

/-- The nibble form (R104) and the byte form (R105) equal the bit-serial reference (R102). -/
def Obligations.CrcTableFormsEqualBitSerial : Prop :=
  ∀ s : List Byte, crcNibbles s = crcBits s ∧ crcBytes s = crcBits s ∧
    ∀ impl, crc8 impl s = crcBits s

/-- R106: the CRC of no bytes is 0. -/
def Obligations.CrcOfNoBytesIsZero : Prop :=
  (∀ impl, crc8 impl [] = 0) ∧ ∀ s : State, exec (.crc8 []) s = .next (s.answered .ok (.byte 0))

/-- R108 (a) and (b): zero bytes, leading zero bytes, and the residue. -/
def Obligations.CrcZeroBytesAndResidue : Prop :=
  ∀ (impl : CrcImpl) (n : Nat) (s : List Byte),
    crc8 impl (List.replicate n 0) = 0 ∧ crc8 impl (List.replicate n 0 ++ s) = crc8 impl s ∧
      crc8 impl (s ++ [crc8 impl s]) = 0

/-- R108 (c) and (d): linearity, and every single-bit error changes the CRC. -/
def Obligations.CrcLinearAndDetectsBitFlip : Prop :=
  (∀ (impl : CrcImpl) (s t : List Byte), s.length = t.length →
    crc8 impl (List.zipWith (· ^^^ ·) s t) = crc8 impl s ^^^ crc8 impl t) ∧
  (∀ (impl : CrcImpl) (s : List Byte) (i k : Nat), i < s.length → k < 8 →
    crc8 impl (flipBit s i k) ≠ crc8 impl s)

/-! ## The payload cursor -/

/-- MSG_INIT answers a Message with the given identity and length 0 (41_cursor.md R111), and
changes nothing else. Its `crc8` has no defined value (log 11) and nothing is said of it. -/
def Obligations.MsgInitAnswersEmptyMessage : Prop :=
  ∀ (t o : Byte) (s : State), ∃ m : Message,
    exec (.msgInit t o) s = .next (s.answered .ok (.message m)) ∧
      m.typeId = t ∧ m.opcode = o ∧ m.dataLen = 0

/-- APPEND_U8, APPEND_U16 and APPEND_U32: the value's bytes, least significant first, at the
end of the payload and the length up by the width; or, where they do not fit, PAYLOAD_FULL
and the Message as it was (R112, R113, R115, R116). Nothing else changes. `appended` also keeps
the Message's `crc8`, which U8 leaves open: that clause is the model's choice (log 11). -/
def Obligations.AppendsWriteLittleEndianOrLeaveMessage : Prop :=
  ∀ (s : State) (m : Message),
    (∀ v : BitVec 8, exec (.appendU8 m v) s = .next
      (if m.dataLen.toNat + 1 ≤ s.params.maxPayload then
        s.answered .ok (.message (appended s m [v]))
      else s.answered .payloadFull (.message m))) ∧
    (∀ v : BitVec 16, exec (.appendU16 m v) s = .next
      (if m.dataLen.toNat + 2 ≤ s.params.maxPayload then
        s.answered .ok (.message (appended s m [v.extractLsb' 0 8, v.extractLsb' 8 8]))
      else s.answered .payloadFull (.message m))) ∧
    (∀ v : BitVec 32, exec (.appendU32 m v) s = .next
      (if m.dataLen.toNat + 4 ≤ s.params.maxPayload then
        s.answered .ok (.message (appended s m
          [v.extractLsb' 0 8, v.extractLsb' 8 8, v.extractLsb' 16 8, v.extractLsb' 24 8]))
      else s.answered .payloadFull (.message m)))

/-- APPEND_U24, where the implementation has it (R114); where it has not, its code is
unassigned and refused (R12, U1). `appended` also keeps the Message's `crc8`, which U8 leaves
open: that clause is the model's choice (log 11). -/
def Obligations.AppendU24WritesWhereItExists : Prop :=
  ∀ (s : State) (m : Message) (v : BitVec 24),
    (s.params.cursorHasU24 = true → exec (.appendU24 m v) s = .next
      (if m.dataLen.toNat + 3 ≤ s.params.maxPayload then
        s.answered .ok (.message (appended s m
          [v.extractLsb' 0 8, v.extractLsb' 8 8, v.extractLsb' 16 8]))
      else s.answered .payloadFull (.message m))) ∧
    (s.params.cursorHasU24 = false →
      exec (.appendU24 m v) s = .refused (.unassignedCommand 0x13))

/-- READ_U8, READ_U16 and READ_U32: the bytes at the offset, least significant first; or
READ_OUT_OF_RANGE and no value where they pass the valid length (R117 to R120). Nothing else
changes. The bytes are the buffer's wherever the buffer holds them (R237). -/
def Obligations.ReadsAssembleLittleEndianOrFail : Prop :=
  ∀ (s : State) (buf : List Byte) (len offset : Byte),
    let b := fun k => (window s.opCount buf len.toNat).getD (offset.toNat + k) 0
    (∀ i, i < len.toNat → i < buf.length → (window s.opCount buf len.toNat)[i]? = buf[i]?) ∧
    exec (.readU8 buf len offset) s = .next
      (if offset.toNat + 1 ≤ len.toNat then s.answered .ok (.byte (b 0))
       else s.answered .readOutOfRange .none) ∧
    exec (.readU16 buf len offset) s = .next
      (if offset.toNat + 2 ≤ len.toNat then s.answered .ok (.half (b 1 ++ b 0))
       else s.answered .readOutOfRange .none) ∧
    exec (.readU32 buf len offset) s = .next
      (if offset.toNat + 4 ≤ len.toNat then s.answered .ok (.word (b 3 ++ b 2 ++ b 1 ++ b 0))
       else s.answered .readOutOfRange .none)

/-- R122: what an append wrote, the read of the same width at the old length gives back, and
every read that was legal before gives what it gave. `Held` is what the record always is: its
bytes below `data_len` are defined (10_state.md R25; log 10). -/
def Obligations.ReadsGiveBackWhatWasAppended : Prop :=
  ∀ (s : State) (m m' : Message), s.params.legal = true → m.Held →
    (∀ v : BitVec 8, exec (.appendU8 m v) s = .next (s.answered .ok (.message m')) →
      KeepsReads m m' ∧ ∀ s', exec (.readU8 m'.data m'.dataLen m.dataLen) s' =
        .next (s'.answered .ok (.byte v))) ∧
    (∀ v : BitVec 16, exec (.appendU16 m v) s = .next (s.answered .ok (.message m')) →
      KeepsReads m m' ∧ ∀ s', exec (.readU16 m'.data m'.dataLen m.dataLen) s' =
        .next (s'.answered .ok (.half v))) ∧
    (∀ v : BitVec 32, exec (.appendU32 m v) s = .next (s.answered .ok (.message m')) →
      KeepsReads m m' ∧ ∀ s', exec (.readU32 m'.data m'.dataLen m.dataLen) s' =
        .next (s'.answered .ok (.word v)))

/-- 10_state.md R24: a Message that any operation answers with OK is valid. -/
def Obligations.AnsweredMessagesAreValid : Prop :=
  ∀ (i : Instr) (s t : State) (m : Message), exec i s = .next t →
    t.responses = s.responses ++ [{ status := .ok, result := .message m }] → m.Valid s.params

/-! ## The message codec -/

/-- ENCODE: the frame and its length, or zero bytes with the first of the two failures (R131,
R132, R212). Nothing else changes. -/
def Obligations.EncodeAnswersFrameOrNothing : Prop :=
  ∀ (s : State) (m : Message) (cap : Nat), exec (.encode m cap) s = .next
    (if s.params.maxPayload < m.dataLen.toNat then s.answered .lenOverCapacity (.frame 0 [])
     else if cap < 3 + m.dataLen.toNat + 1 then s.answered .bufferTooSmall (.frame 0 [])
     else s.answered .ok (.frame (4 + m.dataLen.toNat) (frameBytes s.opCount m)))

/-- Every byte sequence either begins with exactly one legal frame or has exactly one fault,
never both, and the codec accepts it in the first case only (42_codec.md R135, R139, R212). -/
def Obligations.BytesAreOneFrameOrOneFault : Prop :=
  ∀ (p : Params) (present : List Byte),
    (conforms p present = true ↔ ∃ t o l data, IsFrame p present t o l data) ∧
    (conforms p present = false ↔ ∃ st, FrameFault p present st) ∧
    (∀ st st', FrameFault p present st → FrameFault p present st' → st = st') ∧
    (∀ t o l data t' o' l' data', IsFrame p present t o l data →
      IsFrame p present t' o' l' data' → t = t' ∧ o = o' ∧ l = l' ∧ data = data')

/-- DECODE without a Context (R134, R135, R137): the Message of the frame that the bytes begin
with, or the status of their fault and no Message. Nothing else changes. -/
def Obligations.DecodeWithoutContextAnswersMessageOrFault : Prop :=
  ∀ (s : State) (bytes : List Byte) (n : Nat),
    (∀ t o l data, IsFrame s.params (window s.opCount bytes n) t o l data →
      exec (.decode bytes n false) s = .next (s.answered .ok (.message
        { typeId := t, opcode := o, dataLen := l, data := data,
          crc8 := crcBits (t :: o :: l :: data) }))) ∧
    (∀ st, FrameFault s.params (window s.opCount bytes n) st →
      exec (.decode bytes n false) s = .next (s.answered st .none))

/-- DECODE against the Context (R134, R136): as without it, and the statistics move exactly
once. -/
def Obligations.DecodeAgainstContextMovesStatistics : Prop :=
  ∀ (s : State) (c : Context) (bytes : List Byte) (n : Nat), s.ctx = some c →
    (∀ t o l data, IsFrame s.params (window s.opCount bytes n) t o l data →
      exec (.decode bytes n true) s = .next ((s.setCtx { c with lastCrcOk := true }).answered .ok
        (.message { typeId := t, opcode := o, dataLen := l, data := data,
                    crc8 := crcBits (t :: o :: l :: data) }))) ∧
    (∀ st, FrameFault s.params (window s.opCount bytes n) st →
      c.crcErrorCount < s.params.counterMax →
      exec (.decode bytes n true) s = .next ((s.setCtx
        { c with crcErrorCount := c.crcErrorCount + 1, lastCrcOk := false }).answered st .none))

/-- What a failed decode against the Context does at the counter's top (U4): refused unless
the parameter says otherwise (log 13). For DECODE, which ends with the fault's status, and for
the ten instructions of the receive path, which end with OK. -/
def Obligations.CounterAtTopFollowsParameter : Prop :=
  ∀ (s : State) (c : Context) (present : List Byte) (st : Status), s.ctx = some c →
    FrameFault s.params present st → c.crcErrorCount = s.params.counterMax →
    let atTop := fun (i : Instr) (ended : Status) =>
      (s.params.counterTop = .refuse → exec i s = .refused .counterAtTop) ∧
      (s.params.counterTop = .wrap → exec i s = .next ((s.setCtx
        { c with crcErrorCount := 0, lastCrcOk := false }).answered ended .none)) ∧
      (s.params.counterTop = .saturate → exec i s = .next ((s.setCtx
        { c with lastCrcOk := false }).answered ended .none))
    (∀ bytes n, window s.opCount bytes n = present → atTop (.decode bytes n true) st) ∧
    (c.role = .peripheral → ∀ i, presented s.opCount i = some present → atTop i .ok)

/-- R140, both ways, between endpoints of equal FRAME_MAX: a valid Message encodes, and its
frame decodes to a Message equal to it as a message; and what decodes encodes back to the
bytes that were decoded. -/
def Obligations.EncodeAndDecodeAreInverse : Prop :=
  (∀ (s s' : State) (m : Message) (cap : Nat) (u : Bool), m.Held → m.Valid s.params →
    4 + m.dataLen.toNat ≤ cap → s'.params.frameMax = s.params.frameMax →
    (u = true → s'.ctx ≠ none) →
    ∃ bytes m' t, exec (.encode m cap) s = .next (s.answered .ok (.frame bytes.length bytes)) ∧
      exec (.decode bytes bytes.length u) s' = .next t ∧
      t.responses = s'.responses ++ [{ status := .ok, result := .message m' }] ∧ m'.Same m) ∧
  (∀ (s s' t : State) (m : Message) (bytes : List Byte) (n : Nat) (u : Bool),
    s'.params.legal = true → s'.params.frameMax = s.params.frameMax →
    exec (.decode bytes n u) s = .next t →
    t.responses = s.responses ++ [{ status := .ok, result := .message m }] →
    exec (.encode m s'.params.frameMax) s' = .next (s'.answered .ok (.frame (4 + m.dataLen.toNat)
      ((window s.opCount bytes n).take (4 + m.dataLen.toNat)))))

/-- R142: a Message just initialised encodes to exactly 4 bytes wherever there is room for
them and nowhere else, and they decode to length 0. -/
def Obligations.EmptyMessageIsFourBytes : Prop :=
  ∀ (s s₁ : State) (t o : Byte) (m : Message) (cap : Nat),
    exec (.msgInit t o) s = .next (s.answered .ok (.message m)) →
    (4 ≤ cap → exec (.encode m cap) s₁ =
      .next (s₁.answered .ok (.frame 4 [t, o, 0, crcBits [t, o, 0]]))) ∧
    (cap < 4 → exec (.encode m cap) s₁ = .next (s₁.answered .bufferTooSmall (.frame 0 []))) ∧
    exec (.decode [t, o, 0, crcBits [t, o, 0]] 4 false) s₁ = .next (s₁.answered .ok (.message
      { typeId := t, opcode := o, dataLen := 0, data := [], crc8 := crcBits [t, o, 0] }))

/-- R141: a frame with one bit inverted, other than in its length byte, always fails with
CRC_MISMATCH and counts once; a length byte that the flip raised fails with another fault; one
that it lowered fails with CRC_MISMATCH unless the byte now in the CRC's place is the CRC of the
shorter span, and the example shows that this can be. -/
def Obligations.SingleBitErrorsAreCaught : Prop :=
  (∀ (s : State) (c : Context) (m : Message) (op j k : Nat), s.ctx = some c →
    c.crcErrorCount < s.params.counterMax → m.Valid s.params →
    j < (frameBytes op m).length → k < 8 →
    let bad := flipBit (frameBytes op m) j k
    let l := m.dataLen ^^^ (1#8 <<< k)
    let fails := fun st => exec (.decode bad (frameBytes op m).length true) s =
      .next ((s.setCtx { c with crcErrorCount := c.crcErrorCount + 1, lastCrcOk := false }).answered
        st .none)
    (j ≠ 2 → fails .crcMismatch) ∧
    (j = 2 → m.dataLen.toNat < l.toNat → fails .declaredLenOverCapacity ∨ fails .truncated) ∧
    (j = 2 → l.toNat < m.dataLen.toNat → bad.getD (3 + l.toNat) 0 ≠ crcBits (bad.take (3 + l.toNat)) →
      fails .crcMismatch)) ∧
  ∀ s : State, s.params.legal = true →
    exec (.decode (flipBit [0x00, 0x00, 0x01, 0x00, 0x15] 2 0) 5 false) s = .next (s.answered .ok
      (.message { typeId := 0, opcode := 0, dataLen := 0, data := [], crc8 := 0x00 }))

/-! ## Set-up and polling -/

/-- CTX_INIT makes the Context of 10_state.md R47, whether or not one was present. -/
def Obligations.CtxInitZeroesTheContext : Prop :=
  ∀ (s : State) (r : Role) (a : Byte), exec (.ctxInit r a) s = .next ((s.setCtx
    { role := r, address := a
      handlerTable := List.replicate s.params.hcap { opcode := 0, cb := Cb.NONE, ud := ⟨0⟩ }
      handlerCount := 0, requestedOpcode := 0, crcErrorCount := 0, lastCrcOk := false
      onMessage := Cb.NONE, onRequest := Cb.NONE }).answered .ok .none)

/-- REGISTER (43_dispatch.md R152): a duplicate replaces its slot where it stands, even on a
full table; a new opcode takes the next free slot; on a full table nothing changes. The
callback NONE is refused (U6). -/
def Obligations.RegisterReplacesAppendsOrReportsFull : Prop :=
  ∀ (s : State) (c : Context) (o : Byte) (cb : Cb) (ud : Ud), s.ctx = some c → c.Wf s.params →
    (cb = Cb.NONE → exec (.register o cb ud) s = .refused .noneCallback) ∧
    (cb ≠ Cb.NONE →
    (∀ (k : Nat) (sl : Slot), c.used[k]? = some sl → sl.opcode = o →
      exec (.register o cb ud) s = .next ((s.setCtx { c with
        handlerTable := c.handlerTable.set k { opcode := o, cb := cb, ud := ud } }).answered .ok .none)) ∧
    ((∀ sl ∈ c.used, sl.opcode ≠ o) → c.handlerCount < s.params.hcap →
      exec (.register o cb ud) s = .next ((s.setCtx { c with
        handlerTable := c.handlerTable.set c.handlerCount { opcode := o, cb := cb, ud := ud }
        handlerCount := c.handlerCount + 1 }).answered .ok .none)) ∧
    ((∀ sl ∈ c.used, sl.opcode ≠ o) → c.handlerCount = s.params.hcap →
      exec (.register o cb ud) s = .next (s.answered .tableFull .none)))

/-- After a registration the lookup of its opcode finds it, and of every other opcode what it
found before (R152, R158). -/
def Obligations.RegisteredHandlerIsFound : Prop :=
  ∀ (s t : State) (c c' : Context) (o : Byte) (cb : Cb) (ud : Ud), s.ctx = some c →
    c.Wf s.params → exec (.register o cb ud) s = .next t →
    t.responses = s.responses ++ [{ status := .ok, result := .none }] → t.ctx = some c' →
    c'.lookup o = some { opcode := o, cb := cb, ud := ud } ∧
      ∀ o', o' ≠ o → c'.lookup o' = c.lookup o'

/-- SET_ON_MESSAGE and SET_ON_REQUEST write their callback and nothing else (R153, R154). -/
def Obligations.CallbackWiringWritesOneField : Prop :=
  ∀ (s : State) (c : Context) (cb : Cb), s.ctx = some c →
    exec (.setOnMessage cb) s = .next ((s.setCtx { c with onMessage := cb }).answered .ok .none) ∧
    exec (.setOnRequest cb) s = .next ((s.setCtx { c with onRequest := cb }).answered .ok .none)

/-- CTX_READ answers the field of its selector (10_state.md R38, 43_dispatch.md R155) and
changes nothing; a selector of 8 or more is refused. -/
def Obligations.CtxReadAnswersTheSelectedField : Prop :=
  ∀ (s : State) (c : Context), s.ctx = some c →
    exec (.ctxRead 0) s = .next (s.answered .ok (.bit (c.role == .peripheral))) ∧
    exec (.ctxRead 1) s = .next (s.answered .ok (.byte c.address)) ∧
    exec (.ctxRead 2) s = .next (s.answered .ok (.count c.handlerCount)) ∧
    exec (.ctxRead 3) s = .next (s.answered .ok (.byte c.requestedOpcode)) ∧
    exec (.ctxRead 4) s = .next (s.answered .ok (.count c.crcErrorCount)) ∧
    exec (.ctxRead 5) s = .next (s.answered .ok (.bit c.lastCrcOk)) ∧
    exec (.ctxRead 6) s = .next (s.answered .ok (.token c.onMessage)) ∧
    exec (.ctxRead 7) s = .next (s.answered .ok (.token c.onRequest)) ∧
    ∀ sel : Byte, 8 ≤ sel.toNat → exec (.ctxRead sel) s = .refused (.unknownSelector sel)

/-! ## The receive path: RECEIVE and the nine classes of arriving frames

`presented` names the ten instructions and the bytes each presents. -/

/-- A frame with a fault is dropped, counted, and no more (43_dispatch.md R156 step 2). -/
def Obligations.BadFrameIsDroppedAndCounted : Prop :=
  ∀ (i : Instr) (s : State) (c : Context) (present : List Byte) (st : Status),
    presented s.opCount i = some present → s.ctx = some c → c.role = .peripheral →
    FrameFault s.params present st → c.crcErrorCount < s.params.counterMax →
    exec i s = .next ((s.setCtx { c with
      crcErrorCount := c.crcErrorCount + 1, lastCrcOk := false }).answered .ok .none)

/-- A SET_REPLY frame stages its first payload byte, or nothing where the payload is empty,
calls nobody, and does not look at `type_id` (R157). -/
def Obligations.SetReplyFrameStagesItsFirstByte : Prop :=
  ∀ (i : Instr) (s : State) (c : Context) (present : List Byte) (t l : Byte) (data : List Byte),
    presented s.opCount i = some present → s.ctx = some c → c.role = .peripheral →
    IsFrame s.params present t 0xFE l data →
    exec i s = .next ((s.setCtx { c with
      lastCrcOk := true, requestedOpcode := data.headD c.requestedOpcode }).answered .ok .none)

/-- A frame of any other opcode that has a handler calls it, once, with the opcode, the
payload, its length and the user data, and does not call `on_message` (R156 step 4, R159). -/
def Obligations.RegisteredOpcodeCallsItsHandler : Prop :=
  ∀ (i : Instr) (s : State) (c : Context) (present : List Byte) (t o l : Byte) (data : List Byte)
    (sl : Slot), presented s.opCount i = some present → s.ctx = some c → c.role = .peripheral →
    IsFrame s.params present t o l data → o ≠ 0xFE → c.Wf s.params → sl ∈ c.used → sl.opcode = o →
    s.CallbackReturns →
    exec i s = .next ((((s.setCtx { c with lastCrcOk := true }).afterCallback
      (.handler sl.cb o data l sl.ud))).answered .ok .none)

/-- A frame whose opcode has no handler goes to `on_message` where that is set, with the whole
Message (R156 step 5, R160). -/
def Obligations.UnregisteredOpcodeCallsOnMessage : Prop :=
  ∀ (i : Instr) (s : State) (c : Context) (present : List Byte) (t o l : Byte) (data : List Byte),
    presented s.opCount i = some present → s.ctx = some c → c.role = .peripheral →
    IsFrame s.params present t o l data → o ≠ 0xFE → (∀ sl ∈ c.used, sl.opcode ≠ o) →
    c.onMessage ≠ Cb.NONE → s.CallbackReturns →
    exec i s = .next ((((s.setCtx { c with lastCrcOk := true }).afterCallback
      (.onMessage c.onMessage { typeId := t, opcode := o, dataLen := l, data := data,
                                crc8 := crcBits (t :: o :: l :: data) }))).answered .ok .none)

/-- R161: a frame whose opcode has neither is ignored, and counts as a good decode. -/
def Obligations.UnknownOpcodeIsIgnored : Prop :=
  ∀ (i : Instr) (s : State) (c : Context) (present : List Byte) (t o l : Byte) (data : List Byte),
    presented s.opCount i = some present → s.ctx = some c → c.role = .peripheral →
    IsFrame s.params present t o l data → o ≠ 0xFE → (∀ sl ∈ c.used, sl.opcode ≠ o) →
    c.onMessage = Cb.NONE →
    exec i s = .next ((s.setCtx { c with lastCrcOk := true }).answered .ok .none)

/-- R162: of one frame never two things happen: a staged opcode and a call exclude each
other, and there is at most one call. -/
def Obligations.OneFrameHasAtMostOneConsequence : Prop :=
  ∀ (i : Instr) (s t : State) (c : Context), receives i → s.ctx = some c → exec i s = .next t →
    ∃ c', t.ctx = some c' ∧
      (t.calls = s.calls ∨
        (c'.requestedOpcode = c.requestedOpcode ∧ ∃ call, t.calls = s.calls ++ [call]))

/-- R168: whatever arrives at a peripheral whose callbacks keep their contract, RECEIVE and
every arriving frame complete with OK; only a counter at its top can be refused. -/
def Obligations.ArrivingBytesNeverHaltTheEndpoint : Prop :=
  ∀ (i : Instr) (s : State) (c : Context), receives i → s.ctx = some c → c.role = .peripheral →
    s.CallbackReturns → (c.crcErrorCount < s.params.counterMax ∨ s.params.counterTop ≠ .refuse) →
    ∃ t, exec i s = .next t ∧ t.responses = s.responses ++ [{ status := .ok, result := .none }]

/-- 60_exceptions.md R209 (a): whatever its class, a frame that arrives does what RECEIVE does
with its bytes (log 6). -/
def Obligations.ArrivedFrameActsAsReceive : Prop :=
  ∀ (bytes : List Byte) (s : State),
    exec (decodeArrived bytes) s = exec (.receive bytes bytes.length) s

/-- A callback that issues an operation on its own Context is refused (R169, U5; that the
environment's script says so is log 15): a handler or `on_message` called by any of the ten
instructions of the receive path, and `on_request` called by REQUEST. -/
def Obligations.ReentryFromACallbackIsRefused : Prop :=
  ∀ (s : State) (c : Context), s.ctx = some c → c.role = .peripheral →
    s.answers.popReentry.1 = true →
    (∀ (i : Instr) (present : List Byte) (t o l : Byte) (data : List Byte),
      presented s.opCount i = some present → IsFrame s.params present t o l data → o ≠ 0xFE →
      ((∃ sl ∈ c.used, sl.opcode = o) ∨ c.onMessage ≠ Cb.NONE) →
      exec i s = .refused .reentered) ∧
    (c.onRequest ≠ Cb.NONE → exec .request s = .refused .reentered)

/-! ## The reply-build and send paths -/

/-- REQUEST with `on_request` not set answers `00 00 00 00` (R163, R79). -/
def Obligations.RequestWithoutCallbackAnswersEmptyFrame : Prop :=
  ∀ (s : State) (c : Context), s.params.legal = true → s.ctx = some c → c.role = .peripheral →
    c.onRequest = Cb.NONE → exec .request s = .next (s.answered .ok (.frame 4 [0, 0, 0, 0]))

/-- REQUEST with `on_request` set calls it once, with the staged opcode and the empty Message,
and answers the frame of what it fills, or zero bytes where that does not encode (R163 to
R165). The staged opcode stays. What is not scripted is some answer. -/
def Obligations.RequestAnswersWhatTheCallbackFills : Prop :=
  ∀ (s : State) (c : Context), s.params.legal = true → s.ctx = some c → c.role = .peripheral →
    c.onRequest ≠ Cb.NONE → s.CallbackReturns →
    ∃ m₀ m : Message, m₀.typeId = 0 ∧ m₀.opcode = 0 ∧ m₀.dataLen = 0 ∧
      (∀ m' rest, s.answers.replies = m' :: rest → m = m') ∧
      exec .request s = .next (((s.afterCallback (.onRequest c.onRequest c.requestedOpcode m₀)).setAnswers
        { s.answers with reentries := s.answers.reentries.tail,
                         replies := s.answers.replies.tail }).answered .ok
        (if m.dataLen.toNat ≤ s.params.maxPayload then
          .frame (4 + m.dataLen.toNat) (frameBytes s.opCount m)
        else .frame 0 []))

/-- SEND (R166): a Message that does not encode is reported and nothing is written; else
exactly one ENV.write of its frame, and OK or WRITE_FAILED as the transport answers. What is
not scripted is some answer. -/
def Obligations.SendWritesOneFrameOrReports : Prop :=
  ∀ (s : State) (c : Context) (dest : Byte) (m : Message), s.params.legal = true →
    s.ctx = some c → c.role = .controller →
    (s.params.maxPayload < m.dataLen.toNat →
      exec (.send dest m) s = .next (s.answered .lenOverCapacity .none)) ∧
    (m.dataLen.toNat ≤ s.params.maxPayload → ∃ ok : Bool,
      (∀ ok' rest, s.answers.writes = ok' :: rest → ok = ok') ∧
      exec (.send dest m) s = .next (((s.setAnswers { s.answers with
        writes := s.answers.writes.tail }).addCalls [.write dest (frameBytes s.opCount m)]).answered
        (if ok then .ok else .writeFailed) .none))

/-- The first phase of the two-phase query, across the bus (R75, R87, R157, R163): the frame a
controller sends of the SET_REPLY message stages its opcode at a peripheral of equal
FRAME_MAX, and the peripheral's next REQUEST asks `on_request` for that opcode. -/
def Obligations.SetReplyReachesTheNextReply : Prop :=
  ∀ (sc sp : State) (cc cp : Context) (dest t op : Byte) (m : Message), sc.params.legal = true →
    5 ≤ sc.params.frameMax → sp.params.legal = true → sp.params.frameMax = sc.params.frameMax →
    sc.ctx = some cc → cc.role = .controller → sp.ctx = some cp → cp.role = .peripheral →
    cp.onRequest ≠ Cb.NONE → sp.CallbackReturns →
    m.typeId = t → m.opcode = 0xFE → m.dataLen = 1 → m.data = [op] →
    ∃ bytes tc tp tr m₀, exec (.send dest m) sc = .next tc ∧
      tc.calls = sc.calls ++ [.write dest bytes] ∧ exec (decodeArrived bytes) sp = .next tp ∧
      tp.ctx = some { cp with lastCrcOk := true, requestedOpcode := op } ∧ tp.calls = sp.calls ∧
      exec .request tp = .next tr ∧ tr.calls = sp.calls ++ [.onRequest cp.onRequest op m₀] ∧
      tr.ctx = tp.ctx

/-! ## The scanner -/

/-- SCAN of a bus of devices (R181 to R188): every address of the range is probed once, upward;
a device that acknowledges is found, in strict mode only if the bytes of its one read of
FRAME_MAX bytes are accepted by the codec; the count is the true one and the list its first
`capacity`; the Context is as before. -/
def Obligations.ScanFindsExactlyTheDevices : Prop :=
  ∀ (s : State) (c : Context) (start stop : Byte) (strict : Bool) (cap : Nat) (tm : Timeout)
    (dev : List (Byte × List Byte)) (after : Answers), s.ctx = some c → c.role = .controller →
    s.busAnswers (scanRange start stop) dev strict after →
    (∀ d ∈ dev, d.2.length ≤ s.params.frameMax) →
    let hits := (scanRange start stop).filter fun a =>
      match dev.lookup a with
      | some bytes => !strict || conforms s.params bytes
      | none => false
    let calls := (scanRange start stop).flatMap fun a =>
      if strict && (dev.lookup a).isSome then [.probe a, .read a s.params.frameMax tm] else [.probe a]
    exec (.scan start stop strict cap tm) s = .next (((s.setAnswers after).addCalls calls).answered .ok
      (.scan hits.length (hits.take cap)))

/-- SCAN of any bus completes (R185): it ends after every address of the range, each probed
exactly once, upward; what it stores are addresses of the range in that order, as many as it
found and have room; the Context is as before (R186 to R188). -/
def Obligations.ScanAlwaysCompletes : Prop :=
  ∀ (s : State) (c : Context) (start stop : Byte) (strict : Bool) (cap : Nat) (tm : Timeout),
    s.ctx = some c → c.role = .controller → s.AnswersInType →
    ∃ (a : Answers) (calls : List EnvCall) (n : Nat) (found : List Byte),
      exec (.scan start stop strict cap tm) s =
        .next (((s.setAnswers a).addCalls calls).answered .ok (.scan n found)) ∧
      n ≤ (scanRange start stop).length ∧ found.length = min n cap ∧
      found.Sublist (scanRange start stop) ∧
      calls.filterMap (fun call => match call with | .probe x => some x | _ => none) =
        scanRange start stop

/-! ## What is refused -/

/-- The operations that need the Context are refused while it is absent (R206, R231, U2). -/
def Obligations.AbsentContextIsRefused : Prop :=
  ∀ (i : Instr) (s : State), s.ctx = none → needsNoContext i = false → ¬ initsContext i →
    exec i s = .refused .contextAbsent

/-- The paths of the other role are refused (43_dispatch.md R170, U3). -/
def Obligations.OtherRolesPathsAreRefused : Prop :=
  ∀ (s : State) (c : Context), s.ctx = some c →
    (c.role = .controller → exec .request s = .refused .wrongRole ∧
      ∀ i, receives i → exec i s = .refused .wrongRole) ∧
    (c.role = .peripheral → ∀ (dest start stop : Byte) (m : Message) (strict : Bool) (cap : Nat)
      (tm : Timeout), exec (.send dest m) s = .refused .wrongRole ∧
        exec (.scan start stop strict cap tm) s = .refused .wrongRole)

/-! ## Rules of the whole machine -/

/-- R231, 41_cursor.md R110, 42_codec.md R130: the operations that need no Context neither see
nor change it: with any other in its place they do the same. A free value in the answer is the
same in both because the model draws it by the count of operations (log 9). -/
def Obligations.ContextFreeOperationsIgnoreTheContext : Prop :=
  ∀ (i : Instr) (s t : State) (x : Option Context), needsNoContext i = true →
    exec i s = .next t → t.ctx = s.ctx ∧ exec i { s with ctx := x } = .next { t with ctx := x }

/-- Every operation that is not refused answers exactly once and only adds to the calls
(00_scope.md R17, 30_encoding.md R83, 70_reset_and_hazards.md R245). The other clauses are about
the model's own fields and are its choice: the parameters stay (log 1), the waiting inputs stay
(log 3), one more operation is counted (log 9), and responses and calls are kept (log 19). -/
def Obligations.EveryOperationAnswersOnce : Prop :=
  ∀ (i : Instr) (s t : State), exec i s = .next t →
    t.params = s.params ∧ t.inputs = s.inputs ∧ t.opCount = s.opCount + 1 ∧
      (∃ r, t.responses = s.responses ++ [r]) ∧ ∃ calls, t.calls = s.calls ++ calls

/-- The access table of 10_state.md R39: each Context field is written only by the operations
that the table lists as writing it, and only CTX_INIT makes a Context present. -/
def Obligations.FieldsAreWrittenOnlyAsTheTableSays : Prop :=
  ∀ (i : Instr) (s t : State), exec i s = .next t → ¬ initsContext i →
    (s.ctx = none → t.ctx = none) ∧
    ∀ c, s.ctx = some c → ∃ c', t.ctx = some c' ∧
      c'.role = c.role ∧ c'.address = c.address ∧
      (¬ registers i → c'.handlerTable = c.handlerTable ∧ c'.handlerCount = c.handlerCount) ∧
      (¬ receives i → c'.requestedOpcode = c.requestedOpcode) ∧
      (¬ decodesAgainst i → c'.crcErrorCount = c.crcErrorCount ∧ c'.lastCrcOk = c.lastCrcOk) ∧
      ((∀ cb, i ≠ .setOnMessage cb) → c'.onMessage = c.onMessage) ∧
      ((∀ cb, i ≠ .setOnRequest cb) → c'.onRequest = c.onRequest)

/-- Only a SET_REPLY frame or a RECEIVE stages an opcode: the eight other classes of frames
leave `requested_opcode` as it is (R33, R74, R157). -/
def Obligations.OnlySetReplyFramesStage : Prop :=
  ∀ (i : Instr) (s t : State) (c : Context), exec i s = .next t → s.ctx = some c →
    ¬ initsContext i → (∀ bytes n, i ≠ .receive bytes n) → (∀ x l rest, i ≠ .frameSetReply x l rest) →
    ∃ c', t.ctx = some c' ∧ c'.requestedOpcode = c.requestedOpcode

/-- R34, R136: but for CTX_INIT, an operation leaves `crc_error_count` or adds exactly one and
clears `last_crc_ok`; only a counter that wraps at its top goes down. -/
def Obligations.CounterMovesByFailedDecodesOnly : Prop :=
  ∀ (i : Instr) (s t : State) (c c' : Context), exec i s = .next t → s.ctx = some c →
    t.ctx = some c' → ¬ initsContext i →
    c'.crcErrorCount = c.crcErrorCount ∨
    (c'.crcErrorCount = c.crcErrorCount + 1 ∧ c'.lastCrcOk = false) ∨
    (s.params.counterTop = .wrap ∧ s.params.counterMax ≤ c.crcErrorCount ∧ c'.crcErrorCount = 0)

/-- R207: an operation ends only with the statuses that the table lists for it. -/
def Obligations.OperationsEndOnlyWithTheirStatuses : Prop :=
  ∀ (i : Instr) (s t : State) (st : Status) (r : Result), s.params.legal = true →
    exec i s = .next t → t.responses = s.responses ++ [{ status := st, result := r }] →
    st ∈ statusesOf i

/-- R208: the only lasting trace of an error is the pair `crc_error_count`, `last_crc_ok`, and
only of a failed decode against a Context; a transport, capacity or bounds error changes nothing
in the Context (R201, R203, R204). -/
def Obligations.ErrorsRecordOnlyTheStatistics : Prop :=
  ∀ (i : Instr) (s t : State) (st : Status) (r : Result), exec i s = .next t →
    t.responses = s.responses ++ [{ status := st, result := r }] → st ≠ .ok →
    (st.statusCode ≠ 0x02 → t.ctx = s.ctx) ∧
    ((∀ bytes n, i ≠ .decode bytes n true) → t.ctx = s.ctx) ∧
    (∀ bytes n, i = .decode bytes n true → ∃ c k, s.ctx = some c ∧
      t.ctx = some { c with crcErrorCount := k, lastCrcOk := false })

/-- The status and cause numbers of 30_encoding.md R83, all different. -/
def Obligations.StatusNumbersAreTheTables : Prop :=
  (Status.ok.statusCode, Status.ok.causeCode) = (0, 0) ∧
  (Status.writeFailed.statusCode, Status.writeFailed.causeCode) = (1, 1) ∧
  (Status.tooShort.statusCode, Status.tooShort.causeCode) = (2, 1) ∧
  (Status.declaredLenOverCapacity.statusCode, Status.declaredLenOverCapacity.causeCode) = (2, 2) ∧
  (Status.truncated.statusCode, Status.truncated.causeCode) = (2, 3) ∧
  (Status.crcMismatch.statusCode, Status.crcMismatch.causeCode) = (2, 4) ∧
  (Status.payloadFull.statusCode, Status.payloadFull.causeCode) = (3, 1) ∧
  (Status.bufferTooSmall.statusCode, Status.bufferTooSmall.causeCode) = (3, 2) ∧
  (Status.tableFull.statusCode, Status.tableFull.causeCode) = (3, 3) ∧
  (Status.lenOverCapacity.statusCode, Status.lenOverCapacity.causeCode) = (3, 4) ∧
  (Status.readOutOfRange.statusCode, Status.readOutOfRange.causeCode) = (4, 1)

/-! ## The pseudo-operations -/

/-- MSG_SET_REPLY (30_encoding.md R87) builds the SET_REPLY message of R75 in two operations,
in any state, where a payload byte fits. -/
def Obligations.MsgSetReplyBuildsTheMessage : Prop :=
  ∀ (s : State) (t op : Byte), s.params.legal = true → 5 ≤ s.params.frameMax →
    ∃ s' m, pseudoMsgSetReply t op s = .next s' ∧ s'.opCount = s.opCount + 2 ∧
      s'.ctx = s.ctx ∧ s'.calls = s.calls ∧ s'.lastMessage = some m ∧
      m.typeId = t ∧ m.opcode = 0xFE ∧ m.dataLen = 1 ∧ m.data = [op]

/-- QUERY (R87, R167): on a controller whose transport accepts the write and answers the read
with a legal frame, the SET_REPLY frame is written, the peer is read once, and the Message of
the frame is answered and counted as a good decode. The host's read is recorded with the
block's calls (log 26). -/
def Obligations.QueryStagesReadsAndDecodes : Prop :=
  ∀ (s : State) (c : Context) (dest t op : Byte) (tm : Timeout) (bytes : List Byte)
    (writes : List Bool) (reads : List (List Byte)) (t' o' l' : Byte) (data : List Byte),
    s.params.legal = true → 5 ≤ s.params.frameMax → s.ctx = some c → c.role = .controller →
    s.answers.writes = true :: writes → s.answers.reads = bytes :: reads →
    bytes.length ≤ s.params.frameMax → IsFrame s.params bytes t' o' l' data →
    ∃ s', pseudoQuery dest t op tm s = .next s' ∧
      s'.ctx = some { c with lastCrcOk := true } ∧
      s'.calls = s.calls ++ [.write dest [t, 0xFE, 1, op, crcBits [t, 0xFE, 1, op]],
        .read dest s.params.frameMax tm] ∧
      s'.lastMessage = some { typeId := t', opcode := o', dataLen := l', data := data,
                              crc8 := crcBits (t' :: o' :: l' :: data) }

/-! ## Encoding, stepping, reset -/

/-- DECODE AND ENCODE AGREE: the input that a well-formed instruction encodes to decodes to
it, every operand of every one of the 29 instructions at every value the port can carry. The
layout of a command's operands is the model's choice (log 4). -/
def Obligations.DecodeOfEncodeIsTheInstruction : Prop :=
  ∀ i : Instr, i.wellFormed = true → decode (encode i) = .ok i

/-- The other way for arriving frames: the nine classes cover every wire opcode once, and no
bit of a header is dropped (30_encoding.md R74, R89). -/
def Obligations.ArrivedFrameEncodesBack : Prop :=
  ∀ (t o l : Byte) (rest : List Byte),
    encode (decodeArrived (t :: o :: l :: rest)) = .bytesArrived (t :: o :: l :: rest)

/-- A few inputs written out byte by byte decode to what they stand for: the command codes are
R82's, the headers of the two frames R70's and their classes R74's. The operand bytes after a
command code are the model's port layout (log 4), which R82 leaves unspecified. -/
def Obligations.WrittenOutInputsDecode : Prop :=
  decode (.command [0x10, 0x01, 0x05]) = .ok (.msgInit 0x01 0x05) ∧
  decode (.command [0x30, 0x01, 0x08]) = .ok (.ctxInit .peripheral 0x08) ∧
  decode (.command [0x34, 0x04]) = .ok (.ctxRead 0x04) ∧
  decode (.command [0x39]) = .ok .request ∧
  decode (.bytesArrived [0x00, 0xFE, 0x01, 0x80, 0xDC]) = .ok (.frameSetReply 0x00 0x01 [0x80, 0xDC]) ∧
  decode (.bytesArrived [0x01, 0x05, 0x00, 0x2A]) = .ok (.frameGeneral 0x01 0x05 0x00 [0x2A]) ∧
  decode (.command [0x02]) = .error (.unassignedCommand 0x02) ∧
  decode (.command [0x1B]) = .error (.unassignedCommand 0x1B)

/-- R84: a command whose code is not in the table of R82 is refused, whatever follows it. (The
code 0x13 is in the table for the implementations that have APPEND_U24.) -/
def Obligations.UnassignedCodesAreRefused : Prop :=
  ∀ (s : State) (code : Byte) (beats : List Byte) (rest : List Input), s.params.legal = true →
    s.inputs = .command (code :: beats) :: rest →
    code ∉ ([0x01, 0x10, 0x11, 0x12, 0x13, 0x14, 0x19, 0x1A, 0x1C, 0x20, 0x21, 0x30, 0x31, 0x32, 0x33,
      0x34, 0x38, 0x39, 0x3A, 0x40] : List Byte) →
    step s = .refused (.unassignedCommand code)

/-- A STEP RUNS THE DECODED INSTRUCTION: with legal parameters, step takes the next input off
the queue and does what exec does with the instruction it decodes to; an input that decodes
to none is refused by name; with no input nothing changes. Parameters outside their legal
ranges are refused (U10). The queue and the idle step are the model's (log 3, 21). -/
def Obligations.StepRunsTheDecodedInstruction : Prop :=
  ∀ s : State, (s.params.legal = false → step s = .refused .illegalParameters) ∧
    (s.params.legal = true →
    (s.inputs = [] → step s = .next s) ∧
    ∀ input rest, s.inputs = input :: rest →
      (∀ i, decode input = .ok i → step s = exec i (s.setInputs rest)) ∧
      (∀ e, decode input = .error e → step s = .refused (refusalOf e)))

/-- Hardware reset leaves the Context absent (70_reset_and_hazards.md R230). That no call and no
response stands in the state then is the model's choice (log 25). -/
def Obligations.ResetLeavesTheContextAbsent : Prop :=
  State.reset.ctx = none ∧ State.reset.calls = [] ∧ State.reset.responses = []

/-- The invariant holds at reset. Its clause that as many responses stand there as operations are
counted rests on the model's own fields (log 9, 25), and the parameters are the defaults (log 1). -/
def Obligations.InvariantHoldsAtReset : Prop := State.reset.Inv

/-- AN INVARIANT THAT EVERY STEP KEEPS (10_state.md R30 to R32, R34): legal parameters, one
response an operation, and of a Context: its table the size it was made, the count within it,
the opcodes in use pairwise different, their callbacks set, the free slots zero, the counter
within its width. The counted responses and the zero slots are the model's (log 9, 24). -/
def Obligations.EveryStepKeepsTheInvariant : Prop :=
  ∀ s t : State, s.Inv → step s = .next t → t.Inv
end

