-- ==== Sys2Proof/Laws/State.lean ====
section
/-! SUPPORT. One lemma per field per update of State, each true by unfolding the update, so
that no later proof unfolds a record update. -/

namespace Sys2Proof.Machine

open Sys2Proof

@[simp] theorem State.setCtx_params (s : State) (c : Context) : (s.setCtx c).params = s.params := rfl
@[simp] theorem State.setCtx_ctx (s : State) (c : Context) : (s.setCtx c).ctx = some c := rfl
@[simp] theorem State.setCtx_inputs (s : State) (c : Context) : (s.setCtx c).inputs = s.inputs := rfl
@[simp] theorem State.setCtx_answers (s : State) (c : Context) : (s.setCtx c).answers = s.answers := rfl
@[simp] theorem State.setCtx_calls (s : State) (c : Context) : (s.setCtx c).calls = s.calls := rfl
@[simp] theorem State.setCtx_responses (s : State) (c : Context) : (s.setCtx c).responses = s.responses := rfl
@[simp] theorem State.setCtx_opCount (s : State) (c : Context) : (s.setCtx c).opCount = s.opCount := rfl

@[simp] theorem State.setInputs_params (s : State) (is : List Input) : (s.setInputs is).params = s.params := rfl
@[simp] theorem State.setInputs_ctx (s : State) (is : List Input) : (s.setInputs is).ctx = s.ctx := rfl
@[simp] theorem State.setInputs_inputs (s : State) (is : List Input) : (s.setInputs is).inputs = is := rfl
@[simp] theorem State.setInputs_answers (s : State) (is : List Input) : (s.setInputs is).answers = s.answers := rfl
@[simp] theorem State.setInputs_calls (s : State) (is : List Input) : (s.setInputs is).calls = s.calls := rfl
@[simp] theorem State.setInputs_responses (s : State) (is : List Input) : (s.setInputs is).responses = s.responses := rfl
@[simp] theorem State.setInputs_opCount (s : State) (is : List Input) : (s.setInputs is).opCount = s.opCount := rfl

@[simp] theorem State.setAnswers_params (s : State) (a : Answers) : (s.setAnswers a).params = s.params := rfl
@[simp] theorem State.setAnswers_ctx (s : State) (a : Answers) : (s.setAnswers a).ctx = s.ctx := rfl
@[simp] theorem State.setAnswers_inputs (s : State) (a : Answers) : (s.setAnswers a).inputs = s.inputs := rfl
@[simp] theorem State.setAnswers_answers (s : State) (a : Answers) : (s.setAnswers a).answers = a := rfl
@[simp] theorem State.setAnswers_calls (s : State) (a : Answers) : (s.setAnswers a).calls = s.calls := rfl
@[simp] theorem State.setAnswers_responses (s : State) (a : Answers) : (s.setAnswers a).responses = s.responses := rfl
@[simp] theorem State.setAnswers_opCount (s : State) (a : Answers) : (s.setAnswers a).opCount = s.opCount := rfl

@[simp] theorem State.addCalls_params (s : State) (cs : List EnvCall) : (s.addCalls cs).params = s.params := rfl
@[simp] theorem State.addCalls_ctx (s : State) (cs : List EnvCall) : (s.addCalls cs).ctx = s.ctx := rfl
@[simp] theorem State.addCalls_inputs (s : State) (cs : List EnvCall) : (s.addCalls cs).inputs = s.inputs := rfl
@[simp] theorem State.addCalls_answers (s : State) (cs : List EnvCall) : (s.addCalls cs).answers = s.answers := rfl
@[simp] theorem State.addCalls_calls (s : State) (cs : List EnvCall) : (s.addCalls cs).calls = s.calls ++ cs := rfl
@[simp] theorem State.addCalls_responses (s : State) (cs : List EnvCall) : (s.addCalls cs).responses = s.responses := rfl
@[simp] theorem State.addCalls_opCount (s : State) (cs : List EnvCall) : (s.addCalls cs).opCount = s.opCount := rfl

@[simp] theorem State.addResponse_params (s : State) (r : Response) : (s.addResponse r).params = s.params := rfl
@[simp] theorem State.addResponse_ctx (s : State) (r : Response) : (s.addResponse r).ctx = s.ctx := rfl
@[simp] theorem State.addResponse_inputs (s : State) (r : Response) : (s.addResponse r).inputs = s.inputs := rfl
@[simp] theorem State.addResponse_answers (s : State) (r : Response) : (s.addResponse r).answers = s.answers := rfl
@[simp] theorem State.addResponse_calls (s : State) (r : Response) : (s.addResponse r).calls = s.calls := rfl
@[simp] theorem State.addResponse_responses (s : State) (r : Response) : (s.addResponse r).responses = s.responses ++ [r] := rfl
@[simp] theorem State.addResponse_opCount (s : State) (r : Response) : (s.addResponse r).opCount = s.opCount + 1 := rfl

@[simp] theorem State.answered_params (s : State) (st : Status) (r : Result) : (s.answered st r).params = s.params := rfl
@[simp] theorem State.answered_ctx (s : State) (st : Status) (r : Result) : (s.answered st r).ctx = s.ctx := rfl
@[simp] theorem State.answered_inputs (s : State) (st : Status) (r : Result) : (s.answered st r).inputs = s.inputs := rfl
@[simp] theorem State.answered_answers (s : State) (st : Status) (r : Result) : (s.answered st r).answers = s.answers := rfl
@[simp] theorem State.answered_calls (s : State) (st : Status) (r : Result) : (s.answered st r).calls = s.calls := rfl
@[simp] theorem State.answered_responses (s : State) (st : Status) (r : Result) : (s.answered st r).responses = s.responses ++ [{ status := st, result := r }] := rfl
@[simp] theorem State.answered_opCount (s : State) (st : Status) (r : Result) : (s.answered st r).opCount = s.opCount + 1 := rfl

@[simp] theorem State.addCalls_nil (s : State) : s.addCalls [] = s := by simp [State.addCalls]

@[simp] theorem State.setAnswers_self (s : State) : s.setAnswers s.answers = s := rfl

theorem State.setCtx_self (s : State) (c : Context) (h : s.ctx = some c) : s.setCtx c = s := by
  cases s; simp_all [State.setCtx]

@[simp] theorem recordSuccess_role (c : Context) : (recordSuccess c).role = c.role := rfl
@[simp] theorem recordSuccess_address (c : Context) : (recordSuccess c).address = c.address := rfl
@[simp] theorem recordSuccess_handlerTable (c : Context) : (recordSuccess c).handlerTable = c.handlerTable := rfl
@[simp] theorem recordSuccess_handlerCount (c : Context) : (recordSuccess c).handlerCount = c.handlerCount := rfl
@[simp] theorem recordSuccess_requestedOpcode (c : Context) : (recordSuccess c).requestedOpcode = c.requestedOpcode := rfl
@[simp] theorem recordSuccess_crcErrorCount (c : Context) : (recordSuccess c).crcErrorCount = c.crcErrorCount := rfl
@[simp] theorem recordSuccess_lastCrcOk (c : Context) : (recordSuccess c).lastCrcOk = true := rfl
@[simp] theorem recordSuccess_onMessage (c : Context) : (recordSuccess c).onMessage = c.onMessage := rfl
@[simp] theorem recordSuccess_onRequest (c : Context) : (recordSuccess c).onRequest = c.onRequest := rfl

/-- The fresh Context of `CTX_INIT` has no slot in use. -/
@[simp] theorem freshContext_used (p : Params) (r : Role) (a : Byte) :
    (freshContext p r a).used = [] := by simp [freshContext, Context.used]

end Sys2Proof.Machine
end

