-- ==== Sys2Proof/Laws/Ops.lean ====
section
/-! SUPPORT. For each shared operation, once, what it can do. The proofs of statements cite
these and do not unfold the operations. -/

namespace Sys2Proof.Machine

open Sys2Proof

/-! ## How an operation ends and reaches the Context -/

@[simp] theorem respond_next (s t : State) (st : Status) (r : Result) :
    respond s st r = .next t ↔ t = s.answered st r := by
  simp [respond, eq_comm]

theorem respond_eq (s : State) (st : Status) (r : Result) :
    respond s st r = .next (s.answered st r) := rfl

theorem withContext_some {s : State} {c : Context} (h : s.ctx = some c) (k : Context → Result3) :
    withContext s k = k c := by simp [withContext, h]

theorem withContext_none {s : State} (h : s.ctx = none) (k : Context → Result3) :
    withContext s k = .refused .contextAbsent := by simp [withContext, h]

theorem withContext_next {s t : State} {k : Context → Result3} (h : withContext s k = .next t) :
    ∃ c, s.ctx = some c ∧ k c = .next t := by
  unfold withContext at h
  split at h
  · cases h
  · exact ⟨_, ‹_›, h⟩

theorem withRole_some {s : State} {c : Context} {r : Role} (h : s.ctx = some c) (hr : c.role = r)
    (k : Context → Result3) : withRole r s k = k c := by
  simp [withRole, withContext_some h, hr]

theorem withRole_next {s t : State} {r : Role} {k : Context → Result3}
    (h : withRole r s k = .next t) : ∃ c, s.ctx = some c ∧ c.role = r ∧ k c = .next t := by
  obtain ⟨c, hc, hk⟩ := withContext_next h
  split at hk
  · exact ⟨c, hc, ‹_›, hk⟩
  · cases hk

theorem withCallback_next {s t : State} {call : EnvCall} {k : State → Result3}
    (h : withCallback s call k = .next t) :
    s.answers.popReentry.1 = false ∧
      k ((s.setAnswers s.answers.popReentry.2).addCalls [call]) = .next t := by
  unfold withCallback at h
  split at h
  · cases h
  · rename_i hr
    exact ⟨by simpa using hr, h⟩

theorem withCallback_returns {s : State} (h : s.answers.popReentry.1 = false) (call : EnvCall)
    (k : State → Result3) :
    withCallback s call k = k ((s.setAnswers s.answers.popReentry.2).addCalls [call]) := by
  simp [withCallback, h]

/-! ## Buffers and little-endian values -/

@[simp] theorem window_length (op : Nat) (buf : List Byte) (n : Nat) :
    (window op buf n).length = n := by simp [window]; omega

theorem window_of_le (op : Nat) (buf : List Byte) (n : Nat) (h : n ≤ buf.length) :
    window op buf n = buf.take n := by
  simp [window, Nat.sub_eq_zero_of_le h]

@[simp] theorem window_self (op : Nat) (buf : List Byte) : window op buf buf.length = buf := by
  simp [window]

@[simp] theorem payload_length (op : Nat) (m : Message) :
    (payload op m).length = m.dataLen.toNat := by simp [payload]

@[simp] theorem leBytes_length (w v : Nat) : (leBytes w v).length = w := by
  induction w generalizing v with
  | zero => rfl
  | succ w ih => simp [leBytes, ih]

theorem leValue_leBytes (w v : Nat) : leValue (leBytes w v) = v % 256 ^ w := by
  induction w generalizing v with
  | zero => simp [leBytes, leValue, Nat.mod_one]
  | succ w ih =>
    have := Nat.mod_mul (x := v) (a := 256) (b := 256 ^ w)
    simp [leBytes, leValue, ih, Nat.pow_succ, Nat.mul_comm (256 ^ w) 256, this]

/-! ## The cursor -/

theorem appendLe_some {p : Params} {op : Nat} {m m' : Message} {w v : Nat}
    (h : appendLe p op m w v = some m') :
    m.dataLen.toNat + w ≤ p.maxPayload ∧
      m' = { m with dataLen := BitVec.ofNat 8 (m.dataLen.toNat + w)
                    data := payload op m ++ leBytes w v } := by
  unfold appendLe at h
  split at h
  · cases h
  · exact ⟨by omega, by simpa using h.symm⟩

theorem appendLe_none {p : Params} {op : Nat} {m : Message} {w v : Nat} :
    appendLe p op m w v = none ↔ p.maxPayload < m.dataLen.toNat + w := by
  simp [appendLe]

/-- The two ends of an append. -/
theorem appendTo_cases (s : State) (m : Message) (w v : Nat) :
    (s.params.maxPayload < m.dataLen.toNat + w ∧
      appendTo s m w v = .next (s.answered .payloadFull (.message m))) ∨
    (m.dataLen.toNat + w ≤ s.params.maxPayload ∧
      appendTo s m w v = .next (s.answered .ok (.message
        { m with dataLen := BitVec.ofNat 8 (m.dataLen.toNat + w)
                 data := payload s.opCount m ++ leBytes w v }))) := by
  unfold appendTo appendLe
  by_cases h : m.dataLen.toNat + w > s.params.maxPayload
  · exact .inl ⟨h, by simp [h, respond]⟩
  · exact .inr ⟨by omega, by simp [h, respond]⟩

theorem readLe_none {op : Nat} {buf : List Byte} {len offset : Byte} {w : Nat} :
    readLe op buf len offset w = none ↔ len.toNat < offset.toNat + w := by
  simp [readLe]

theorem readLe_some {op : Nat} {buf : List Byte} {len offset : Byte} {w v : Nat}
    (h : readLe op buf len offset w = some v) :
    offset.toNat + w ≤ len.toNat ∧
      v = leValue (((window op buf len.toNat).drop offset.toNat).take w) := by
  unfold readLe at h
  split at h
  · cases h
  · exact ⟨by omega, by simpa using h.symm⟩

/-! ## The codec -/

/-- The three ends of an encode (42_codec.md R131, R132). -/
theorem encodeFrame_cases (p : Params) (m : Message) (data : List Byte) (cap : Nat) :
    (p.maxPayload < m.dataLen.toNat ∧ encodeFrame p m data cap = .error .lenOverCapacity) ∨
    (m.dataLen.toNat ≤ p.maxPayload ∧ cap < 4 + m.dataLen.toNat ∧
      encodeFrame p m data cap = .error .bufferTooSmall) ∨
    (m.dataLen.toNat ≤ p.maxPayload ∧ 4 + m.dataLen.toNat ≤ cap ∧
      encodeFrame p m data cap = .ok (m.typeId :: m.opcode :: m.dataLen :: data ++
        [crc8 p.crcImpl (m.typeId :: m.opcode :: m.dataLen :: data)])) := by
  unfold encodeFrame
  by_cases h : m.dataLen.toNat > p.maxPayload
  · exact .inl ⟨h, by simp [h]⟩
  · by_cases h2 : cap < 3 + m.dataLen.toNat + 1
    · exact .inr (.inl ⟨by omega, by omega, by simp [h, h2]⟩)
    · exact .inr (.inr ⟨by omega, by omega, by simp [h, h2]⟩)

/-- The ends of a decode of at least a header and one byte, one per test in its order (R135). -/
theorem decodeFrame_cons (p : Params) (t o l b : Byte) (rest : List Byte) :
    decodeFrame p (t :: o :: l :: b :: rest) =
      if p.maxPayload < l.toNat then .error .declaredLenOverCapacity
      else if rest.length < l.toNat then .error .truncated
      else if crc8 p.crcImpl (t :: o :: l :: (b :: rest).take l.toNat) ≠ (b :: rest).getD l.toNat 0
      then .error .crcMismatch
      else .ok { typeId := t, opcode := o, dataLen := l, data := (b :: rest).take l.toNat,
                 crc8 := (b :: rest).getD l.toNat 0 } := by
  have h4 : ¬ (t :: o :: l :: b :: rest).length < 4 := by simp
  have e1 : (t :: o :: l :: b :: rest).take (3 + l.toNat) = t :: o :: l :: (b :: rest).take l.toNat := by
    rw [show 3 + l.toNat = l.toNat + 3 by omega]
    simp
  have e2 : (t :: o :: l :: b :: rest).getD (3 + l.toNat) 0 = (b :: rest).getD l.toNat 0 := by
    rw [show 3 + l.toNat = l.toNat + 3 by omega]
    simp
  have e3 : ((t :: o :: l :: b :: rest).length < 3 + l.toNat + 1) = (rest.length < l.toNat) := by
    simp
    omega
  simp only [decodeFrame, h4, if_false, List.getD_cons_succ, List.getD_cons_zero, e1, e2, e3, gt_iff_lt,
    List.drop_succ_cons, List.drop_zero]

/-- What a successful decode found (R139): a header, a payload of the declared length that the
Message can hold, the CRC of both, and whatever follows. -/
theorem decodeFrame_ok {p : Params} {present : List Byte} {m : Message}
    (h : decodeFrame p present = .ok m) :
    m.data.length = m.dataLen.toNat ∧ m.dataLen.toNat ≤ p.maxPayload ∧
      m.crc8 = crc8 p.crcImpl (m.typeId :: m.opcode :: m.dataLen :: m.data) ∧
      ∃ extra, present = m.typeId :: m.opcode :: m.dataLen :: (m.data ++ m.crc8 :: extra) := by
  match present, h with
  | [], h => simp [decodeFrame] at h
  | [_], h => simp [decodeFrame] at h
  | [_, _], h => simp [decodeFrame] at h
  | [_, _, _], h => simp [decodeFrame] at h
  | t :: o :: l :: b :: rest, h =>
    rw [decodeFrame_cons] at h
    split at h
    · cases h
    split at h
    · cases h
    split at h
    · cases h
    rename_i hmax hlen hcrc
    cases h
    have hlt : l.toNat < (b :: rest).length := by simp; omega
    refine ⟨by simp; omega, by simpa using hmax, (not_not.mp hcrc).symm,
      (b :: rest).drop (l.toNat + 1), ?_⟩
    simp only [List.getD_eq_getElem _ _ hlt, ← List.drop_eq_getElem_cons hlt, List.take_append_drop]

theorem decodeFrame_short {p : Params} {present : List Byte} (h : present.length < 4) :
    decodeFrame p present = .error .tooShort := by simp [decodeFrame, h]

/-- The statuses a decode can fail with (60_exceptions.md R207). -/
theorem decodeFrame_error {p : Params} {present : List Byte} {st : Status}
    (h : decodeFrame p present = .error st) :
    st = .tooShort ∨ st = .declaredLenOverCapacity ∨ st = .truncated ∨ st = .crcMismatch := by
  unfold decodeFrame at h
  simp only at h
  split at h <;> [skip; split at h <;> [skip; split at h <;> [skip; split at h]]] <;> simp_all

/-! ## The statistics -/

/-- The ends of a counted failure (R136, U4). -/
theorem recordFailure_ok {p : Params} {c c' : Context} (h : recordFailure p c = .ok c') :
    c' = { c with crcErrorCount := c'.crcErrorCount, lastCrcOk := false } ∧
      ((c.crcErrorCount < p.counterMax ∧ c'.crcErrorCount = c.crcErrorCount + 1) ∨
       (p.counterMax ≤ c.crcErrorCount ∧ p.counterTop = .wrap ∧ c'.crcErrorCount = 0) ∨
       (p.counterMax ≤ c.crcErrorCount ∧ p.counterTop = .saturate ∧
         c'.crcErrorCount = c.crcErrorCount)) := by
  unfold recordFailure at h
  split at h
  · cases h
    exact ⟨rfl, .inl ⟨‹_›, rfl⟩⟩
  · rename_i hlt
    have hle := Nat.le_of_not_lt hlt
    split at h
    · cases h
    · cases h
      exact ⟨rfl, .inr (.inl ⟨hle, ‹_›, rfl⟩)⟩
    · cases h
      exact ⟨rfl, .inr (.inr ⟨hle, ‹_›, rfl⟩)⟩

theorem recordFailure_below {p : Params} {c : Context} (h : c.crcErrorCount < p.counterMax) :
    recordFailure p c =
      .ok { c with crcErrorCount := c.crcErrorCount + 1, lastCrcOk := false } := by
  simp [recordFailure, h]

/-! ## The handler table -/

/-- The two ends of a registration that succeeds (43_dispatch.md R152). -/
theorem registered_some {p : Params} {c c' : Context} {sl : Slot}
    (h : c.registered p sl = some c') :
    (∃ i u, c.used[i]? = some u ∧ u.opcode = sl.opcode ∧
      c' = { c with handlerTable := c.handlerTable.set i sl }) ∨
    ((∀ u ∈ c.used, u.opcode ≠ sl.opcode) ∧ c.handlerCount < p.hcap ∧
      c' = { c with
        handlerTable := c.handlerTable.set c.handlerCount sl
        handlerCount := c.handlerCount + 1 }) := by
  unfold Context.registered at h
  split at h
  · rename_i i hi
    obtain ⟨hlt, hp, -⟩ := List.findIdx?_eq_some_iff_getElem.mp hi
    cases h
    exact .inl ⟨i, c.used[i], by simp, by simpa using hp, rfl⟩
  · rename_i hnone
    split at h
    · cases h
    · cases h
      refine .inr ⟨?_, by omega, rfl⟩
      intro u hu
      simpa using List.findIdx?_eq_none_iff.mp hnone u hu

/-- What a lookup finds is a slot in use with the opcode (R158). -/
theorem lookup_some {c : Context} {op : Byte} {sl : Slot} (h : c.lookup op = some sl) :
    sl ∈ c.used ∧ sl.opcode = op := by
  unfold Context.lookup at h
  exact ⟨List.mem_of_find?_eq_some h, by simpa using List.find?_some h⟩

theorem lookup_none {c : Context} {op : Byte} :
    c.lookup op = none ↔ ∀ u ∈ c.used, u.opcode ≠ op := by
  simp [Context.lookup]

/-! ## The receive path -/

/-- Everything the dispatch of a decoded Message can do (R156 to R162). -/
theorem dispatchMessage_next {s t : State} {c : Context} {m : Message}
    (h : dispatchMessage s c m = .next t) :
    (m.opcode = 0xFE#8 ∧ 1 ≤ m.dataLen.toNat ∧
      t = (s.setCtx { c with requestedOpcode := m.data.headD 0 }).answered .ok .none) ∨
    (m.opcode = 0xFE#8 ∧ m.dataLen.toNat = 0 ∧ t = s.answered .ok .none) ∨
    (∃ sl, m.opcode ≠ 0xFE#8 ∧ c.lookup m.opcode = some sl ∧ s.answers.popReentry.1 = false ∧
      t = ((s.setAnswers s.answers.popReentry.2).addCalls
        [.handler sl.cb m.opcode m.data m.dataLen sl.ud]).answered .ok .none) ∨
    (m.opcode ≠ 0xFE#8 ∧ c.lookup m.opcode = none ∧ c.onMessage ≠ Cb.NONE ∧
      s.answers.popReentry.1 = false ∧
      t = ((s.setAnswers s.answers.popReentry.2).addCalls
        [.onMessage c.onMessage m]).answered .ok .none) ∨
    (m.opcode ≠ 0xFE#8 ∧ c.lookup m.opcode = none ∧ c.onMessage = Cb.NONE ∧
      t = s.answered .ok .none) := by
  unfold dispatchMessage at h
  split at h
  · split at h
    · exact .inl ⟨‹_›, ‹_›, by simpa using h⟩
    · exact .inr (.inl ⟨‹_›, by omega, by simpa using h⟩)
  · split at h
    · obtain ⟨hr, hk⟩ := withCallback_next h
      exact .inr (.inr (.inl ⟨_, ‹_›, ‹_›, hr, by simpa using hk⟩))
    · split at h
      · obtain ⟨hr, hk⟩ := withCallback_next h
        exact .inr (.inr (.inr (.inl ⟨‹_›, ‹_›, ‹_›, hr, by simpa using hk⟩)))
      · exact .inr (.inr (.inr (.inr ⟨‹_›, ‹_›, not_not.mp ‹_›, by simpa using h⟩)))

/-- Everything the receive path can do (R156): a bad frame counted and dropped, or a good one
counted and dispatched. -/
theorem receivePath_next {s t : State} {present : List Byte}
    (h : receivePath s present = .next t) :
    ∃ c, s.ctx = some c ∧ c.role = .peripheral ∧
      ((∃ st c', decodeFrame s.params present = .error st ∧ recordFailure s.params c = .ok c' ∧
          t = (s.setCtx c').answered .ok .none) ∨
       (∃ m, decodeFrame s.params present = .ok m ∧
          dispatchMessage (s.setCtx (recordSuccess c)) (recordSuccess c) m = .next t)) := by
  obtain ⟨c, hc, hr, hk⟩ := withRole_next h
  refine ⟨c, hc, hr, ?_⟩
  split at hk
  · split at hk
    · cases hk
    · exact .inl ⟨_, _, ‹_›, ‹_›, by simpa using hk⟩
  · exact .inr ⟨_, ‹_›, hk⟩

/-! ## The scanner -/

@[simp] theorem ScanWork.add_answers (w : ScanWork) (cap : Nat) (a : Byte) :
    (w.add cap a).answers = w.answers := rfl

@[simp] theorem ScanWork.add_calls (w : ScanWork) (cap : Nat) (a : Byte) :
    (w.add cap a).calls = w.calls := rfl

@[simp] theorem ScanWork.add_count (w : ScanWork) (cap : Nat) (a : Byte) :
    (w.add cap a).count = w.count + 1 := rfl

/-- What one address of a scan can do (44_scanner.md R181): it counts the address or not. -/
theorem scanAddress_ok {p : Params} {op : Nat} {strict : Bool} {cap : Nat} {tm : Timeout}
    {a : Byte} {w w' : ScanWork} (h : scanAddress p op strict cap tm a w = .ok w') :
    (w'.count = w.count ∧ w'.found = w.found) ∨
      (w'.count = w.count + 1 ∧
        w'.found = if w.count < cap then w.found ++ [a] else w.found) := by
  unfold scanAddress at h
  simp only at h
  split at h
  · split at h
    · split at h
      · cases h
      · split at h
        · cases h
          exact .inl ⟨rfl, rfl⟩
        · cases h
          exact .inr ⟨rfl, rfl⟩
    · cases h
      exact .inr ⟨rfl, rfl⟩
  · cases h
    exact .inl ⟨rfl, rfl⟩

/-- A scan steps from address to address. -/
theorem scanFrom_succ {p : Params} {op : Nat} {strict : Bool} {cap : Nat} {tm : Timeout}
    {k a : Nat} {w w' : ScanWork} (h : scanFrom p op strict cap tm (k + 1) a w = .ok w') :
    ∃ w₁, scanAddress p op strict cap tm (BitVec.ofNat 8 a) w = .ok w₁ ∧
      scanFrom p op strict cap tm k (a + 1) w₁ = .ok w' := by
  unfold scanFrom at h
  split at h
  · cases h
  · exact ⟨_, ‹_›, h⟩

end Sys2Proof.Machine
end

