-- ==== Sys2Proof/Laws/PerInstr.lean ====
section
/-! SUPPORT. A law of every instruction as syntax: the input it encodes to matches its own row of
spec/opcode_table.json (30_encoding.md R82, R89). -/

namespace Sys2Proof.Laws

open Sys2Proof Sys2Proof.Machine

/-- The match and the mask of an instruction's row, and whether the row is of format FRAME. -/
def rowOf : Instr → Bool × Nat × Nat
  | .crc8 _ => (false, 0x01, 0xFF)
  | .msgInit _ _ => (false, 0x10, 0xFF)
  | .appendU8 _ _ => (false, 0x11, 0xFF)
  | .appendU16 _ _ => (false, 0x12, 0xFF)
  | .appendU24 _ _ => (false, 0x13, 0xFF)
  | .appendU32 _ _ => (false, 0x14, 0xFF)
  | .readU8 _ _ _ => (false, 0x19, 0xFF)
  | .readU16 _ _ _ => (false, 0x1A, 0xFF)
  | .readU32 _ _ _ => (false, 0x1C, 0xFF)
  | .encode _ _ => (false, 0x20, 0xFF)
  | .decode _ _ _ => (false, 0x21, 0xFF)
  | .ctxInit _ _ => (false, 0x30, 0xFF)
  | .register _ _ _ => (false, 0x31, 0xFF)
  | .setOnMessage _ => (false, 0x32, 0xFF)
  | .setOnRequest _ => (false, 0x33, 0xFF)
  | .ctxRead _ => (false, 0x34, 0xFF)
  | .receive _ _ => (false, 0x38, 0xFF)
  | .request => (false, 0x39, 0xFF)
  | .send _ _ => (false, 0x3A, 0xFF)
  | .scan _ _ _ _ _ => (false, 0x40, 0xFF)
  | .frameGeneral _ _ _ _ => (true, 0x000000, 0x008000)
  | .frameUnclassified80BF _ _ _ _ => (true, 0x008000, 0x00C000)
  | .frameUnclassifiedC0DF _ _ _ _ => (true, 0x00C000, 0x00E000)
  | .frameUnclassifiedE0EF _ _ _ _ => (true, 0x00E000, 0x00F000)
  | .frameUnclassifiedF0F7 _ _ _ _ => (true, 0x00F000, 0x00F800)
  | .frameUnclassifiedF8FB _ _ _ _ => (true, 0x00F800, 0x00FC00)
  | .frameUnclassifiedFCFD _ _ _ _ => (true, 0x00FC00, 0x00FE00)
  | .frameSetReply _ _ _ => (true, 0x00FE00, 0x00FF00)
  | .frameReservedFF _ _ _ => (true, 0x00FF00, 0x00FF00)

/-- A byte agrees with a match in the bits of a mask. -/
def agrees (b mask want : Byte) : Bool := (b &&& mask) == want

/-- The three bytes of a header agree with a 24-bit match and mask (R72, R89). -/
def headerAgrees (t o l : Byte) (mask want : List Byte) : Bool :=
  match mask, want with
  | [m₁, m₂, m₃], [w₁, w₂, w₃] => agrees t m₁ w₁ && agrees o m₂ w₂ && agrees l m₃ w₃
  | _, _ => false

/-- An input matches a row: a command by its code, an arriving frame by its header. -/
def matchesRow : Bool × Nat × Nat → Input → Bool
  | (false, want, mask), .command (code :: _) =>
    agrees code (BitVec.ofNat 8 mask) (BitVec.ofNat 8 want)
  | (true, want, mask), .bytesArrived (t :: o :: l :: _) =>
    headerAgrees t o l (headerBytes mask) (headerBytes want)
  | _, _ => false

/-- The instruction encodes to an input of its own row. -/
def EncodesItsRow.Statement (i : Instr) : Prop := matchesRow (rowOf i) (encode i) = true

/-- A mask of zero agrees with zero. -/
theorem agrees_zero (b : Byte) : agrees b 0#8 0#8 = true := by simp [agrees]

/-- A header matches when its opcode byte does, for a row that says nothing of the others. -/
theorem headerAgrees_of_opcode {t o l m w : Byte} (h : agrees o m w = true) :
    headerAgrees t o l [0#8, m, 0#8] [0#8, w, 0#8] = true := by
  simp [headerAgrees, agrees_zero, h]

theorem EncodesItsRow.crc8 (s : List Byte) :
    EncodesItsRow.Statement (.crc8 s) := rfl

theorem EncodesItsRow.msgInit (t o : Byte) :
    EncodesItsRow.Statement (.msgInit t o) := rfl

theorem EncodesItsRow.appendU8 (m : Message) (v : BitVec 8) :
    EncodesItsRow.Statement (.appendU8 m v) := rfl

theorem EncodesItsRow.appendU16 (m : Message) (v : BitVec 16) :
    EncodesItsRow.Statement (.appendU16 m v) := rfl

theorem EncodesItsRow.appendU24 (m : Message) (v : BitVec 24) :
    EncodesItsRow.Statement (.appendU24 m v) := rfl

theorem EncodesItsRow.appendU32 (m : Message) (v : BitVec 32) :
    EncodesItsRow.Statement (.appendU32 m v) := rfl

theorem EncodesItsRow.readU8 (s : List Byte) (l o : Byte) :
    EncodesItsRow.Statement (.readU8 s l o) := rfl

theorem EncodesItsRow.readU16 (s : List Byte) (l o : Byte) :
    EncodesItsRow.Statement (.readU16 s l o) := rfl

theorem EncodesItsRow.readU32 (s : List Byte) (l o : Byte) :
    EncodesItsRow.Statement (.readU32 s l o) := rfl

theorem EncodesItsRow.encode (m : Message) (n : Nat) :
    EncodesItsRow.Statement (.encode m n) := rfl

theorem EncodesItsRow.decode (s : List Byte) (n : Nat) (u : Bool) :
    EncodesItsRow.Statement (.decode s n u) := rfl

theorem EncodesItsRow.ctxInit (r : Role) (a : Byte) :
    EncodesItsRow.Statement (.ctxInit r a) := rfl

theorem EncodesItsRow.register (o : Byte) (cb : Cb) (ud : Ud) :
    EncodesItsRow.Statement (.register o cb ud) := rfl

theorem EncodesItsRow.setOnMessage (cb : Cb) :
    EncodesItsRow.Statement (.setOnMessage cb) := rfl

theorem EncodesItsRow.setOnRequest (cb : Cb) :
    EncodesItsRow.Statement (.setOnRequest cb) := rfl

theorem EncodesItsRow.ctxRead (sel : Byte) :
    EncodesItsRow.Statement (.ctxRead sel) := rfl

theorem EncodesItsRow.receive (s : List Byte) (n : Nat) :
    EncodesItsRow.Statement (.receive s n) := rfl

theorem EncodesItsRow.request  :
    EncodesItsRow.Statement (.request) := rfl

theorem EncodesItsRow.send (d : Byte) (m : Message) :
    EncodesItsRow.Statement (.send d m) := rfl

theorem EncodesItsRow.scan (a z : Byte) (s : Bool) (n : Nat) (t : Timeout) :
    EncodesItsRow.Statement (.scan a z s n t) := rfl

theorem EncodesItsRow.frameGeneral (t : Byte) (o : BitVec 7) (l : Byte) (rest : List Byte) :
    EncodesItsRow.Statement (.frameGeneral t o l rest) :=
  headerAgrees_of_opcode (by revert o; decide : agrees (classOpcode 0x00 o) 0x80#8 0x00#8 = true)

theorem EncodesItsRow.frameUnclassified80BF (t : Byte) (o : BitVec 6) (l : Byte) (rest : List Byte) :
    EncodesItsRow.Statement (.frameUnclassified80BF t o l rest) :=
  headerAgrees_of_opcode (by revert o; decide : agrees (classOpcode 0x80 o) 0xC0#8 0x80#8 = true)

theorem EncodesItsRow.frameUnclassifiedC0DF (t : Byte) (o : BitVec 5) (l : Byte) (rest : List Byte) :
    EncodesItsRow.Statement (.frameUnclassifiedC0DF t o l rest) :=
  headerAgrees_of_opcode (by revert o; decide : agrees (classOpcode 0xC0 o) 0xE0#8 0xC0#8 = true)

theorem EncodesItsRow.frameUnclassifiedE0EF (t : Byte) (o : BitVec 4) (l : Byte) (rest : List Byte) :
    EncodesItsRow.Statement (.frameUnclassifiedE0EF t o l rest) :=
  headerAgrees_of_opcode (by revert o; decide : agrees (classOpcode 0xE0 o) 0xF0#8 0xE0#8 = true)

theorem EncodesItsRow.frameUnclassifiedF0F7 (t : Byte) (o : BitVec 3) (l : Byte) (rest : List Byte) :
    EncodesItsRow.Statement (.frameUnclassifiedF0F7 t o l rest) :=
  headerAgrees_of_opcode (by revert o; decide : agrees (classOpcode 0xF0 o) 0xF8#8 0xF0#8 = true)

theorem EncodesItsRow.frameUnclassifiedF8FB (t : Byte) (o : BitVec 2) (l : Byte) (rest : List Byte) :
    EncodesItsRow.Statement (.frameUnclassifiedF8FB t o l rest) :=
  headerAgrees_of_opcode (by revert o; decide : agrees (classOpcode 0xF8 o) 0xFC#8 0xF8#8 = true)

theorem EncodesItsRow.frameUnclassifiedFCFD (t : Byte) (o : BitVec 1) (l : Byte) (rest : List Byte) :
    EncodesItsRow.Statement (.frameUnclassifiedFCFD t o l rest) :=
  headerAgrees_of_opcode (by revert o; decide : agrees (classOpcode 0xFC o) 0xFE#8 0xFC#8 = true)

theorem EncodesItsRow.frameSetReply (t l : Byte) (rest : List Byte) :
    EncodesItsRow.Statement (.frameSetReply t l rest) :=
  headerAgrees_of_opcode (by decide : agrees 0xFE#8 0xFF#8 0xFE#8 = true)

theorem EncodesItsRow.frameReservedFF (t l : Byte) (rest : List Byte) :
    EncodesItsRow.Statement (.frameReservedFF t l rest) :=
  headerAgrees_of_opcode (by decide : agrees 0xFF#8 0xFF#8 0xFF#8 = true)

end Sys2Proof.Laws
end

