-- ==== Sys2Proof/Tests/Slice0.lean ====
section
/-! SUPPORT. The model's own tests: what the well-formedness check refuses, written-out inputs
and what they decode to, the vectors of spec/95_test_vectors.md (named in each comment), and for
each obligation with hypotheses a witness that meets them, at a boundary of each clause. -/

namespace Sys2Proof.Tests

open Sys2Proof Sys2Proof.Machine

/-! ## Small states and what a test looks at -/

/-- A peripheral with one handler (0x05), `on_message` and `on_request` set. -/
def periCtx : Context :=
  { freshContext Params.default .peripheral 0x08 with
    handlerTable := ⟨0x05, ⟨1⟩, ⟨9⟩⟩ :: List.replicate 15 Slot.zero
    handlerCount := 1
    onMessage := ⟨2⟩
    onRequest := ⟨3⟩ }

/-- An endpoint with this Context and these scripted answers, nothing done yet. -/
def endpoint (c : Context) (a : Answers := Answers.unscripted) : State :=
  { State.reset with ctx := some c, answers := a }

/-- The peripheral. -/
def peri : State := endpoint periCtx

/-- A controller. -/
def ctrlCtx : Context := freshContext Params.default .controller 0x00

/-- The controller, its transport answering as scripted. -/
def ctrl (a : Answers := Answers.unscripted) : State := endpoint ctrlCtx a

/-- The next state, if there is one. -/
def nextOf (o : Result3) : Option State :=
  match o with
  | .next t => some t
  | .fault _ => none
  | .refused _ => none

/-- The response of the operation. -/
def responseOf (o : Result3) : Option Response := (nextOf o).bind State.lastResponse

/-- The operation ended with this status and this result. -/
def answers (o : Result3) (st : Status) (r : Result) : Bool :=
  responseOf o == some { status := st, result := r }

/-- The operation ended and its result satisfies a test of the Message in it. -/
def answersMessage (o : Result3) (st : Status) (test : Message → Bool) : Bool :=
  match responseOf o with
  | some { status := st', result := .message m } => st' == st && test m
  | _ => false

/-- The Context after the operation satisfies a test. -/
def ctxAfter (o : Result3) (test : Context → Bool) : Bool :=
  match nextOf o with
  | some t => match t.ctx with
    | some c => test c
    | none => false
  | none => false

/-- The calls of the operation. -/
def callsOf (o : Result3) : Option (List EnvCall) := (nextOf o).map State.calls

/-- The operation is refused for this reason. -/
def refusedAs (o : Result3) (r : Refusal) : Bool :=
  match o with
  | .refused r' => r' == r
  | .next _ => false
  | .fault _ => false

/-- A Message with this payload (its `crc8` plays no part). -/
def msg (t o : Byte) (data : List Byte) : Message :=
  { typeId := t, opcode := o, dataLen := BitVec.ofNat 8 data.length, data := data, crc8 := 0 }

/-! ## The well-formedness check refuses -/

/-- A sequence too long for a four-byte count. -/
def longSeq : List Byte := List.replicate portBound 0

theorem longSeq_refused : portSeq longSeq = false := by
  unfold portSeq portNat longSeq
  rw [List.length_replicate]
  simp

/-- A Message whose payload is too long for the port. -/
def longMsg : Message := { typeId := 0, opcode := 0, dataLen := 0, data := longSeq, crc8 := 0 }

theorem longMsg_refused : longMsg.portable = false := longSeq_refused

theorem smoke_crc8 : Instr.wellFormed (.crc8 longSeq) = false := longSeq_refused
theorem smoke_append : Instr.wellFormed (.appendU8 longMsg 0) = false ∧
    Instr.wellFormed (.appendU16 longMsg 0) = false ∧ Instr.wellFormed (.appendU24 longMsg 0) = false ∧
    Instr.wellFormed (.appendU32 longMsg 0) = false :=
  ⟨longMsg_refused, longMsg_refused, longMsg_refused, longMsg_refused⟩
theorem smoke_read : Instr.wellFormed (.readU8 longSeq 0 0) = false ∧
    Instr.wellFormed (.readU16 longSeq 0 0) = false ∧ Instr.wellFormed (.readU32 longSeq 0 0) = false :=
  ⟨longSeq_refused, longSeq_refused, longSeq_refused⟩
theorem smoke_encode : Instr.wellFormed (.encode longMsg 0) = false ∧
    Instr.wellFormed (.encode (msg 0 0 []) 0x100000000) = false := by
  simp [Instr.wellFormed, longMsg_refused, portNat, portBound]
theorem smoke_decode : Instr.wellFormed (.decode longSeq 0 false) = false ∧
    Instr.wellFormed (.decode [] 0x100000000 false) = false := by
  simp [Instr.wellFormed, longSeq_refused, portNat, portBound]
theorem smoke_register : Instr.wellFormed (.register 0 ⟨0x100000000⟩ ⟨0⟩) = false ∧
    Instr.wellFormed (.register 0 ⟨1⟩ ⟨0x100000000⟩) = false := by decide
theorem smoke_callbacks : Instr.wellFormed (.setOnMessage ⟨0x100000000⟩) = false ∧
    Instr.wellFormed (.setOnRequest ⟨0x100000000⟩) = false := by decide
theorem smoke_receive : Instr.wellFormed (.receive longSeq 0) = false ∧
    Instr.wellFormed (.receive [] 0x100000000) = false := by
  simp [Instr.wellFormed, longSeq_refused, portNat, portBound]
theorem smoke_send : Instr.wellFormed (.send 0 longMsg) = false := longMsg_refused
theorem smoke_scan : Instr.wellFormed (.scan 0 0 false 0x100000000 ⟨0⟩) = false ∧
    Instr.wellFormed (.scan 0 0 false 0 ⟨0x100000000⟩) = false := by decide
theorem smoke_accepts : Instr.wellFormed (.crc8 [1]) = true ∧
    Instr.wellFormed (.encode (msg 0 0 [1]) 0xFFFFFFFF) = true := by decide

/-! ## Decoding: a written-out input for every constructor

The command code is 30_encoding.md R82's and R72's header order for frames; the operand beats
are the port layout of log 4. -/

theorem decodes_crc8 : decode (.command [0x01, 0x02, 0, 0, 0, 0xAA, 0xBB]) = .ok (.crc8 [0xAA, 0xBB]) := by decide
theorem decodes_msgInit : decode (.command [0x10, 0x2A, 0x7F]) = .ok (.msgInit 0x2A 0x7F) := by decide
theorem decodes_appendU8 : decode (.command [0x11, 1, 2, 1, 0x99, 1, 0, 0, 0, 0xAA, 0xBB]) =
    .ok (.appendU8 ⟨1, 2, 1, [0xAA], 0x99⟩ 0xBB) := by decide
theorem decodes_appendU16 : decode (.command [0x12, 1, 2, 0, 0, 0, 0, 0, 0, 0x34, 0x12]) =
    .ok (.appendU16 ⟨1, 2, 0, [], 0⟩ 0x1234) := by decide
theorem decodes_appendU24 : decode (.command [0x13, 1, 2, 0, 0, 0, 0, 0, 0, 0x56, 0x34, 0x12]) =
    .ok (.appendU24 ⟨1, 2, 0, [], 0⟩ 0x123456) := by decide
theorem decodes_appendU32 : decode (.command [0x14, 1, 2, 0, 0, 0, 0, 0, 0, 0x78, 0x56, 0x34, 0x12]) =
    .ok (.appendU32 ⟨1, 2, 0, [], 0⟩ 0x12345678) := by decide
theorem decodes_readU8 : decode (.command [0x19, 1, 0, 0, 0, 0xAA, 1, 0]) = .ok (.readU8 [0xAA] 1 0) := by decide
theorem decodes_readU16 : decode (.command [0x1A, 1, 0, 0, 0, 0xAA, 2, 1]) = .ok (.readU16 [0xAA] 2 1) := by decide
theorem decodes_readU32 : decode (.command [0x1C, 1, 0, 0, 0, 0xAA, 4, 0]) = .ok (.readU32 [0xAA] 4 0) := by decide
theorem decodes_encode : decode (.command [0x20, 1, 2, 0, 0, 0, 0, 0, 0, 31, 0, 0, 0]) =
    .ok (.encode ⟨1, 2, 0, [], 0⟩ 31) := by decide
theorem decodes_decode : decode (.command [0x21, 1, 0, 0, 0, 0xAA, 1, 0, 0, 0, 1]) =
    .ok (.decode [0xAA] 1 true) := by decide
theorem decodes_ctxInit : decode (.command [0x30, 0, 0x11]) = .ok (.ctxInit .controller 0x11) ∧
    decode (.command [0x30, 1, 0x08]) = .ok (.ctxInit .peripheral 0x08) := by decide
theorem decodes_register : decode (.command [0x31, 0x05, 1, 0, 0, 0, 9, 0, 0, 0]) =
    .ok (.register 0x05 ⟨1⟩ ⟨9⟩) := by decide
theorem decodes_setOnMessage : decode (.command [0x32, 2, 1, 0, 0]) = .ok (.setOnMessage ⟨258⟩) := by decide
theorem decodes_setOnRequest : decode (.command [0x33, 3, 0, 0, 0]) = .ok (.setOnRequest ⟨3⟩) := by decide
theorem decodes_ctxRead : decode (.command [0x34, 7]) = .ok (.ctxRead 7) := by decide
theorem decodes_receive : decode (.command [0x38, 1, 0, 0, 0, 0xAA, 1, 0, 0, 0]) = .ok (.receive [0xAA] 1) := by decide
theorem decodes_request : decode (.command [0x39]) = .ok .request ∧ decode .readRequested = .ok .request := by decide
theorem decodes_send : decode (.command [0x3A, 0x08, 0, 0xFE, 1, 0, 1, 0, 0, 0, 0x80]) =
    .ok (.send 0x08 ⟨0, 0xFE, 1, [0x80], 0⟩) := by decide
theorem decodes_scan : decode (.command [0x40, 0x08, 0x77, 1, 8, 0, 0, 0, 5, 0, 0, 0]) =
    .ok (.scan 0x08 0x77 true 8 ⟨5⟩) := by decide
theorem decodes_frameGeneral : decode (.bytesArrived [0x01, 0x7F, 0x00, 0x0A]) =
    .ok (.frameGeneral 0x01 0x7F 0x00 [0x0A]) := by decide
theorem decodes_frame80BF : decode (.bytesArrived [0x01, 0x80, 0x00, 0xDD]) =
    .ok (.frameUnclassified80BF 0x01 0 0x00 [0xDD]) := by decide
theorem decodes_frameC0DF : decode (.bytesArrived [0x01, 0xDF, 0x00]) =
    .ok (.frameUnclassifiedC0DF 0x01 0x1F 0x00 []) := by decide
theorem decodes_frameE0EF : decode (.bytesArrived [0x01, 0xE3, 0x00]) =
    .ok (.frameUnclassifiedE0EF 0x01 3 0x00 []) := by decide
theorem decodes_frameF0F7 : decode (.bytesArrived [0x01, 0xF7, 0x00]) =
    .ok (.frameUnclassifiedF0F7 0x01 7 0x00 []) := by decide
theorem decodes_frameF8FB : decode (.bytesArrived [0x01, 0xFB, 0x00]) =
    .ok (.frameUnclassifiedF8FB 0x01 3 0x00 []) := by decide
theorem decodes_frameFCFD : decode (.bytesArrived [0x01, 0xFD, 0x00, 0x96]) =
    .ok (.frameUnclassifiedFCFD 0x01 1 0x00 [0x96]) := by decide
theorem decodes_frameSetReply : decode (.bytesArrived [0x00, 0xFE, 0x01, 0x80, 0xDC]) =
    .ok (.frameSetReply 0x00 0x01 [0x80, 0xDC]) := by decide
theorem decodes_frameReservedFF : decode (.bytesArrived [0x01, 0xFF, 0x00, 0xBC]) =
    .ok (.frameReservedFF 0x01 0x00 [0xBC]) := by decide

/-- V-REF-5 and R84: codes that are not in the table, and inputs that are no command. -/
theorem decode_refuses : decode (.command [0x02]) = .error (.unassignedCommand 0x02) ∧
    decode (.command [0x1B]) = .error (.unassignedCommand 0x1B) ∧
    decode (.command [0x35]) = .error (.unassignedCommand 0x35) ∧
    decode (.command [0xFF]) = .error (.unassignedCommand 0xFF) ∧
    decode (.command []) = .error .noCommandCode ∧
    decode (.command [0x30, 2, 0]) = .error (.malformedOperands 0x30) ∧
    decode (.command [0x01, 2, 0, 0, 0, 0xAA]) = .error (.malformedOperands 0x01) := by decide

/-- Words of the opcode table (30_encoding.md R72: `H = type_id << 16 | opcode << 8 | data_len`). -/
theorem decodes_table_words : decodeTableWord 8 0x39 = some .request ∧
    decodeTableWord 8 0x40 = some (.scan 0 0 false 0 ⟨0⟩) ∧
    decodeTableWord 24 0x00FE00 = some (.frameSetReply 0 0 [0]) ∧
    decodeTableWord 24 0x018501 = some (.frameUnclassified80BF 0x01 5 0x01 [0, 0]) ∧
    decodeTableWord 8 0x1B = none := by decide

/-- A step from reset runs the word placed for it: MSG_INIT 0, 0 answers the empty Message. -/
theorem test_step_runs_fetch_word :
    answersMessage (step (State.reset.withFetchWord 8 0x10)) .ok (fun m => m.dataLen == 0) = true ∧
    refusedAs (step (State.reset.withFetchWord 24 0x00FE00)) .contextAbsent = true := by
  decide +kernel

/-! ## One step of each instruction -/

/-- V-CRC-12 and V-CRC-14, through the operation (40_crc.md R107). -/
theorem test_crc8 :
    answers (exec (.crc8 [0x31, 0x32, 0x33, 0x34, 0x35, 0x36, 0x37, 0x38, 0x39]) State.reset) .ok (.byte 0xF4) = true ∧
    answers (exec (.crc8 [0x01, 0x01, 0x02, 0xAA, 0xBB, 0x10]) State.reset) .ok (.byte 0x00) = true := by
  decide +kernel

/-- V-CRC-7, V-CRC-8, V-CRC-10, V-CRC-18, by each form (R102, R104, R105). -/
theorem test_crc_forms : crcBits [0x10] = 0x70 ∧ crcNibbles [0x80] = 0x89 ∧ crcBytes [0xFF, 0xFF] = 0x24 ∧
    crcNibbles [0x12, 0x34] = 0xF1 ∧ crcBits [0x12, 0x34] = 0xF1 := by decide +kernel

/-- V-CUR-2. -/
theorem test_msgInit : answersMessage (exec (.msgInit 0 0xFE) State.reset) .ok
    (fun m => m.typeId == 0 && m.opcode == 0xFE && m.dataLen == 0) = true := by decide

/-- V-CUR-4 and V-CUR-10. -/
theorem test_appendU8 : answersMessage (exec (.appendU8 (msg 1 1 [0xAA]) 0xBB) State.reset) .ok
      (fun m => m.data == [0xAA, 0xBB] && m.dataLen == 2) = true ∧
    answers (exec (.appendU8 (msg 1 1 (List.replicate 27 0)) 0xBB) State.reset) .payloadFull
      (.message (msg 1 1 (List.replicate 27 0))) = true := by decide

/-- V-CUR-5, V-CUR-11 and V-CUR-12. -/
theorem test_appendU16 : answersMessage (exec (.appendU16 (msg 1 1 []) 0x1234) State.reset) .ok
      (fun m => m.data == [0x34, 0x12] && m.dataLen == 2) = true ∧
    answers (exec (.appendU16 (msg 1 1 (List.replicate 26 0)) 0xBEEF) State.reset) .payloadFull
      (.message (msg 1 1 (List.replicate 26 0))) = true ∧
    answersMessage (exec (.appendU16 (msg 1 1 (List.replicate 25 0)) 0xBEEF) State.reset) .ok
      (fun m => m.dataLen == 27) = true := by decide

/-- V-CUR-9. -/
theorem test_appendU24 : answersMessage (exec (.appendU24 (msg 1 1 []) 0x123456)
      { State.reset with params := { Params.default with cursorHasU24 := true } }) .ok
      (fun m => m.data == [0x56, 0x34, 0x12] && m.dataLen == 3) = true ∧
    refusedAs (exec (.appendU24 (msg 1 1 []) 0x123456) State.reset) (.unassignedCommand 0x13) = true := by
  decide

/-- V-CUR-8, V-CUR-13 and V-CUR-14. -/
theorem test_appendU32 : answersMessage (exec (.appendU32 (msg 1 1 [0x34, 0x12]) 0x12345678) State.reset) .ok
      (fun m => m.data == [0x34, 0x12, 0x78, 0x56, 0x34, 0x12] && m.dataLen == 6) = true ∧
    answers (exec (.appendU32 (msg 1 1 (List.replicate 24 0)) 0) State.reset) .payloadFull
      (.message (msg 1 1 (List.replicate 24 0))) = true ∧
    answersMessage (exec (.appendU32 (msg 1 1 (List.replicate 23 0)) 0) State.reset) .ok
      (fun m => m.dataLen == 27) = true := by decide

/-- V-CUR-17, V-CUR-18 and V-CUR-28. -/
theorem test_readU8 : answers (exec (.readU8 [0xAA, 0xBB] 2 1) State.reset) .ok (.byte 0xBB) = true ∧
    answers (exec (.readU8 [0xAA, 0xBB] 2 2) State.reset) .readOutOfRange .none = true ∧
    answers (exec (.readU8 [0xAA, 0xBB] 1 1) State.reset) .readOutOfRange .none = true := by decide

/-- V-CUR-22 and V-CUR-21. -/
theorem test_readU16 :
    answers (exec (.readU16 [0x34, 0x12, 0x78, 0x56, 0x34, 0x12] 6 1) State.reset) .ok (.half 0x7812) = true ∧
    answers (exec (.readU16 [0x34, 0x12] 2 1) State.reset) .readOutOfRange .none = true := by decide

/-- V-CUR-25, V-CUR-26 and V-CUR-27 (255 + 4 does not wrap). -/
theorem test_readU32 :
    answers (exec (.readU32 [0x34, 0x12, 0x78, 0x56, 0x34, 0x12] 6 2) State.reset) .ok (.word 0x12345678) = true ∧
    answers (exec (.readU32 [0x34, 0x12, 0x78, 0x56, 0x34, 0x12] 6 3) State.reset) .readOutOfRange .none = true ∧
    answers (exec (.readU32 [] 27 255) State.reset) .readOutOfRange .none = true := by decide

/-- V-ENC-6, V-ENC-20. -/
theorem test_encode :
    answers (exec (.encode (msg 1 1 [0xAA, 0xBB]) 6) State.reset) .ok
      (.frame 6 [0x01, 0x01, 0x02, 0xAA, 0xBB, 0x10]) = true ∧
    answers (exec (.encode (msg 1 0x10 [0x34, 0x12]) 31) State.reset) .ok
      (.frame 6 [0x01, 0x10, 0x02, 0x34, 0x12, 0x00]) = true := by decide +kernel

/-- V-ENC-5, V-ENC-24 and V-ENC-25 (the length is tested first). -/
theorem test_encode_errors :
    answers (exec (.encode (msg 1 1 [0xAA, 0xBB]) 5) State.reset) .bufferTooSmall (.frame 0 []) = true ∧
    answers (exec (.encode (msg 1 1 (List.replicate 28 0)) 1000) State.reset) .lenOverCapacity (.frame 0 []) = true ∧
    answers (exec (.encode (msg 1 1 (List.replicate 28 0)) 3) State.reset) .lenOverCapacity (.frame 0 []) = true := by
  decide +kernel

/-- V-DEC-23, and V-DEC-1 against a Context. -/
theorem test_decode :
    answers (exec (.decode [0x01, 0x01, 0x02, 0xAA, 0xBB, 0x10, 0x00] 7 false) State.reset) .ok
      (.message ⟨1, 1, 2, [0xAA, 0xBB], 0x10⟩) = true ∧
    ctxAfter (exec (.decode [0x01, 0x01, 0x02, 0xAA, 0xBB, 0x10] 6 true) (ctrl))
      (fun c => c.lastCrcOk && c.crcErrorCount == 0) = true := by decide +kernel

/-- V-DEC-3, V-DEC-8, V-DEC-22 and V-DEC-14, and the count of the last. -/
theorem test_decode_errors :
    answers (exec (.decode [0x01, 0x01, 0x02] 3 false) State.reset) .tooShort .none = true ∧
    answers (exec (.decode [0x01, 0x01, 0x1C, 0x00] 4 false) State.reset) .declaredLenOverCapacity .none = true ∧
    answers (exec (.decode [0x01, 0x01, 0x02, 0xAA, 0xBB, 0x10] 5 false) State.reset) .truncated .none = true ∧
    answers (exec (.decode [0x01, 0x01, 0x02, 0xAA, 0xBB, 0x90] 6 true) (ctrl)) .crcMismatch .none = true ∧
    ctxAfter (exec (.decode [0x01, 0x01, 0x02, 0xAA, 0xBB, 0x90] 6 true) (ctrl))
      (fun c => !c.lastCrcOk && c.crcErrorCount == 1) = true := by decide +kernel

/-- V-DSP-21. -/
theorem test_ctxInit : ctxAfter (exec (.ctxInit .peripheral 0x08) peri)
    (fun c => c.role == .peripheral && c.address == 0x08 && c.handlerCount == 0 &&
      c.handlerTable == List.replicate 16 Slot.zero && c.onMessage == Cb.NONE &&
      c.onRequest == Cb.NONE && c.crcErrorCount == 0 && !c.lastCrcOk) = true := by decide

/-- V-DSP-14 and program P6 lines 4 and 5 (a full table; a duplicate on it). -/
theorem test_register :
    ctxAfter (exec (.register 0x05 ⟨4⟩ ⟨7⟩) peri)
      (fun c => c.used == [⟨0x05, ⟨4⟩, ⟨7⟩⟩] && c.handlerCount == 1) = true ∧
    answers (exec (.register 0x06 ⟨4⟩ ⟨7⟩) { peri with params := { Params.default with hcap := 1 } })
      .tableFull .none = true ∧
    refusedAs (exec (.register 0x06 Cb.NONE ⟨7⟩) peri) .noneCallback = true := by decide

/-- R152: a new opcode takes the next free slot. -/
theorem test_register_new : ctxAfter (exec (.register 0x06 ⟨4⟩ ⟨7⟩) peri)
    (fun c => c.used == [⟨0x05, ⟨1⟩, ⟨9⟩⟩, ⟨0x06, ⟨4⟩, ⟨7⟩⟩] && c.handlerCount == 2) = true := by decide

/-- Program P3 lines 3 and 4. -/
theorem test_callbacks : ctxAfter (exec (.setOnMessage ⟨6⟩) peri) (fun c => c.onMessage == ⟨6⟩ && c.onRequest == ⟨3⟩) = true ∧
    ctxAfter (exec (.setOnRequest ⟨6⟩) peri) (fun c => c.onRequest == ⟨6⟩ && c.onMessage == ⟨2⟩) = true := by decide

/-- V-DSP-19, V-DSP-20 and V-REF-6. -/
theorem test_ctxRead : answers (exec (.ctxRead 0) peri) .ok (.bit true) = true ∧
    answers (exec (.ctxRead 2) peri) .ok (.count 1) = true ∧
    answers (exec (.ctxRead 6) peri) .ok (.token ⟨2⟩) = true ∧
    refusedAs (exec (.ctxRead 8) peri) (.unknownSelector 8) = true := by decide

/-- V-DSP-1 and V-DSP-3. -/
theorem test_receive :
    callsOf (exec (.receive [0x01, 0x05, 0x03, 0x01, 0x02, 0x03, 0xB6] 7) peri) =
      some [.handler ⟨1⟩ 0x05 [0x01, 0x02, 0x03] 3 ⟨9⟩] ∧
    callsOf (exec (.receive [0x01, 0x05, 0x03, 0x01, 0x02, 0x03, 0xB7] 7) peri) = some [] ∧
    ctxAfter (exec (.receive [0x01, 0x05, 0x03, 0x01, 0x02, 0x03, 0xB7] 7) peri)
      (fun c => c.crcErrorCount == 1 && !c.lastCrcOk) = true := by decide +kernel

/-- V-DSP-17, V-DSP-16 and the call it makes. -/
theorem test_request :
    answers (exec .request (endpoint periCtx { Answers.unscripted with replies := [msg 1 0x80 [0x2A]] })) .ok
      (.frame 5 [0x01, 0x80, 0x01, 0x2A, 0xDE]) = true ∧
    answers (exec .request (endpoint periCtx { Answers.unscripted with replies := [msg 1 0x80 (List.replicate 28 0)] }))
      .ok (.frame 0 []) = true := by decide +kernel

/-- V-DSP-15. -/
theorem test_request_unset : answers (exec .request (endpoint { periCtx with onRequest := Cb.NONE })) .ok
    (.frame 4 [0x00, 0x00, 0x00, 0x00]) = true := by decide +kernel

/-- V-DSP-22, V-DSP-23 and V-DSP-24. -/
theorem test_send :
    callsOf (exec (.send 0x08 (msg 0 0xFE [0x80])) (ctrl { Answers.unscripted with writes := [true] })) =
      some [.write 0x08 [0x00, 0xFE, 0x01, 0x80, 0xDC]] ∧
    answers (exec (.send 0x08 (msg 0 0xFE [0x80])) (ctrl { Answers.unscripted with writes := [false] }))
      .writeFailed .none = true ∧
    callsOf (exec (.send 0x08 (msg 1 1 (List.replicate 28 0))) (ctrl)) = some [] := by decide +kernel

/-- Three addresses of the bus of section 2.6, strict: 0x10 conforms, 0x11 is empty, 0x12
answers as 0x20 does there; and V-SCN-6. -/
theorem test_scan :
    answers (exec (.scan 0x10 0x12 true 8 ⟨5⟩) (ctrl { Answers.unscripted with
        probes := [true, false, true]
        reads := [[0x01, 0x00, 0x03, 0x01, 0x00, 0x00, 0x78], [0xFF, 0xFF, 0xFF]] })) .ok (.scan 1 [0x10]) = true ∧
    callsOf (exec (.scan 0x10 0x12 true 8 ⟨5⟩) (ctrl { Answers.unscripted with
        probes := [true, false, true]
        reads := [[0x01, 0x00, 0x03, 0x01, 0x00, 0x00, 0x78], [0xFF, 0xFF, 0xFF]] })) =
      some [.probe 0x10, .read 0x10 31 ⟨5⟩, .probe 0x11, .probe 0x12, .read 0x12 31 ⟨5⟩] ∧
    answers (exec (.scan 0x20 0x10 false 8 ⟨5⟩) (ctrl)) .ok (.scan 0 []) = true := by decide +kernel

/-- V-SCN-7's end (after 0xFF the scan ends) and R186 (found 2, stored 1). -/
theorem test_scan_end :
    answers (exec (.scan 0xFE 0xFF false 1 ⟨5⟩) (ctrl { Answers.unscripted with probes := [true, true] }))
      .ok (.scan 2 [0xFE]) = true := by decide +kernel

/-- V-DSP-2 and a handler, as arriving frames. -/
theorem test_frameGeneral :
    callsOf (exec (.frameGeneral 0x01 0x06 0x00 [0x15]) peri) = some [.onMessage ⟨2⟩ ⟨1, 6, 0, [], 0x15⟩] ∧
    callsOf (exec (.frameGeneral 0x01 0x05 0x00 [0x2A]) peri) = some [.handler ⟨1⟩ 0x05 [] 0 ⟨9⟩] := by
  decide +kernel

/-- V-DSP-10. -/
theorem test_frame80BF : callsOf (exec (.frameUnclassified80BF 0x01 0x00 0x00 [0xDD]) peri) =
    some [.onMessage ⟨2⟩ ⟨1, 0x80, 0, [], 0xDD⟩] := by decide +kernel

/-- V-ENC-21's frame of opcode 0xFD. -/
theorem test_frameFCFD : callsOf (exec (.frameUnclassifiedFCFD 0x01 0x1 0x00 [0x96]) peri) =
    some [.onMessage ⟨2⟩ ⟨1, 0xFD, 0, [], 0x96⟩] := by decide +kernel

/-- Frames of the other classes whose payload byte is missing (R77, TRUNCATED, R202). -/
theorem test_unclassified_truncated :
    ctxAfter (exec (.frameUnclassifiedC0DF 0x01 0 0x01 [0x00]) peri) (fun c => c.crcErrorCount == 1) = true ∧
    ctxAfter (exec (.frameUnclassifiedE0EF 0x01 0 0x01 [0x00]) peri) (fun c => c.crcErrorCount == 1) = true ∧
    ctxAfter (exec (.frameUnclassifiedF0F7 0x01 0 0x01 [0x00]) peri) (fun c => c.crcErrorCount == 1) = true ∧
    ctxAfter (exec (.frameUnclassifiedF8FB 0x01 0 0x01 [0x00]) peri) (fun c => c.crcErrorCount == 1) = true := by
  decide +kernel

/-- V-DSP-5 and V-DSP-7. -/
theorem test_frameSetReply :
    ctxAfter (exec (.frameSetReply 0x09 0x01 [0x05, 0xE8]) peri) (fun c => c.requestedOpcode == 0x05 && c.lastCrcOk) = true ∧
    callsOf (exec (.frameSetReply 0x09 0x01 [0x05, 0xE8]) peri) = some [] ∧
    ctxAfter (exec (.frameSetReply 0x01 0x00 [0xA9]) (endpoint { periCtx with requestedOpcode := 0x80 }))
      (fun c => c.requestedOpcode == 0x80 && c.lastCrcOk) = true := by decide +kernel

/-- V-DSP-9. -/
theorem test_frameReservedFF : callsOf (exec (.frameReservedFF 0x01 0x00 [0xBC]) peri) =
    some [.onMessage ⟨2⟩ ⟨1, 0xFF, 0, [], 0xBC⟩] := by decide +kernel

/-- V-REF-1, V-REF-3 and V-REF-4. -/
theorem test_refusals : refusedAs (exec .request State.reset) .contextAbsent = true ∧
    refusedAs (exec (.receive [] 0) (ctrl)) .wrongRole = true ∧
    refusedAs (exec (.scan 0 0 false 0 ⟨0⟩) peri) .wrongRole = true := by decide

/-- `BUILD 0x2A, 0x7F, 0x1234:2, 0x12345678:4`, program P1 lines 1 to 3. -/
theorem test_build : answersMessage (pseudoBuild 0x2A 0x7F [.u16 0x1234, .u32 0x12345678] State.reset) .ok
    (fun m => m.data == [0x34, 0x12, 0x78, 0x56, 0x34, 0x12] && m.dataLen == 6) = true := by decide

/-! ## Witnesses: for each obligation with hypotheses, what meets them -/

/-- The frame `01 05 00 2A` (V-ENC-12). -/
def frame05 : List Byte := [0x01, 0x05, 0x00, 0x2A]

/-- The frame `01 06 00 15` (V-ENC-13). -/
def frame06 : List Byte := [0x01, 0x06, 0x00, 0x15]

/-- The frame `00 FE 01 80 DC` (V-ENC-8). -/
def frameFE : List Byte := [0x00, 0xFE, 0x01, 0x80, 0xDC]

theorem frame05_legal : IsFrame Params.default frame05 0x01 0x05 0x00 [] :=
  ⟨by decide, by decide, [], by decide +kernel⟩

theorem frame06_legal : IsFrame Params.default frame06 0x01 0x06 0x00 [] :=
  ⟨by decide, by decide, [], by decide +kernel⟩

theorem frameFE_legal : IsFrame Params.default frameFE 0x00 0xFE 0x01 [0x80] :=
  ⟨by decide, by decide, [], by decide +kernel⟩

/-- No CRC byte but 0x10 makes `01 01 02 AA BB` a frame (V-DEC-14). -/
theorem frame90_illegal (t o l : Byte) (data : List Byte) :
    ¬ IsFrame Params.default [0x01, 0x01, 0x02, 0xAA, 0xBB, 0x90] t o l data := by
  rintro ⟨hlen, -, extra, h⟩
  injection h with h1 h
  injection h with h2 h
  injection h with h3 h
  subst h1 h2 h3
  match data, hlen with
  | [a, b], _ =>
    injection h with h4 h
    injection h with h5 h
    injection h with h6 h
    subst h4 h5
    revert h6
    decide +kernel

/-- The four faults, TOO_SHORT and TRUNCATED one byte below what they need, LEN_OVER_CAPACITY one
above what fits (V-DEC-3, V-DEC-8, V-DEC-5, V-DEC-14). -/
theorem fault_tooShort : FrameFault Params.default [0x01, 0x01, 0x02] .tooShort := .inl ⟨rfl, by decide⟩

theorem fault_overCapacity :
    FrameFault Params.default [0x01, 0x01, 0x1C, 0x00] .declaredLenOverCapacity :=
  .inr (.inl ⟨rfl, by decide, by decide⟩)

theorem fault_truncated : FrameFault Params.default [0x01, 0x01, 0x02, 0xAA, 0xBB] .truncated :=
  .inr (.inr (.inl ⟨rfl, by decide, by decide, by decide⟩))

theorem fault_crcMismatch :
    FrameFault Params.default [0x01, 0x01, 0x02, 0xAA, 0xBB, 0x90] .crcMismatch :=
  .inr (.inr (.inr ⟨rfl, by decide, by decide, by decide, frame90_illegal⟩))

theorem periCtx_wf : periCtx.Wf Params.default :=
  ⟨by decide, by decide, by decide, by decide, by decide, by decide +kernel⟩

/-- A full table of one slot. -/
def fullParams : Params := { Params.default with hcap := 1 }

/-- The peripheral with room for one handler, which it has. -/
def fullCtx : Context := { periCtx with handlerTable := [⟨0x05, ⟨1⟩, ⟨9⟩⟩] }

theorem fullCtx_wf : fullCtx.Wf fullParams :=
  ⟨by decide, by decide, by decide, by decide, by decide, by decide +kernel⟩

/-- A Context one failure below its counter's top, and one at it (CNT_W = 1). -/
def topParams (t : CounterTop) : Params := { Params.default with cntW := 1, counterTop := t }

theorem witness_CrcLinearAndDetectsBitFlip :
    ([0x01, 0x02] : List Byte).length = ([0x03, 0x04] : List Byte).length ∧
      1 < ([0x01, 0x02] : List Byte).length ∧ 7 < 8 := by decide

theorem witness_AppendU24WritesWhereItExists :
    { State.reset with params := { Params.default with cursorHasU24 := true } }.params.cursorHasU24 = true ∧
      State.reset.params.cursorHasU24 = false := by decide

/-- The last byte of a buffer, in its valid length. -/
theorem witness_ReadsAssembleLittleEndianOrFail :
    1 < (0x02 : Byte).toNat ∧ 1 < ([0xAA, 0xBB] : List Byte).length := by decide

/-- V-CUR-12 and V-CUR-14: the last append that fits, of each width. -/
theorem witness_ReadsGiveBackWhatWasAppended :
    State.reset.params.legal = true ∧ (msg 1 1 (List.replicate 23 0)).Held ∧
    (∃ m', exec (.appendU8 (msg 1 1 (List.replicate 26 0)) 0xEF) State.reset =
      .next (State.reset.answered .ok (.message m'))) ∧
    (∃ m', exec (.appendU16 (msg 1 1 (List.replicate 25 0)) 0xBEEF) State.reset =
      .next (State.reset.answered .ok (.message m'))) ∧
    (∃ m', exec (.appendU32 (msg 1 1 (List.replicate 23 0)) 1) State.reset =
      .next (State.reset.answered .ok (.message m'))) :=
  ⟨by decide, by unfold Message.Held; decide, ⟨_, rfl⟩, ⟨_, rfl⟩, ⟨_, rfl⟩⟩

theorem witness_AnsweredMessagesAreValid :
    ∃ t m, exec (.msgInit 1 1) State.reset = .next t ∧
      t.responses = State.reset.responses ++ [{ status := .ok, result := .message m }] :=
  ⟨_, _, rfl, rfl⟩

theorem witness_BytesAreOneFrameOrOneFault :
    IsFrame Params.default frame05 0x01 0x05 0x00 [] ∧
      FrameFault Params.default [0x01, 0x01, 0x02] .tooShort := ⟨frame05_legal, fault_tooShort⟩

/-- The window of a buffer as long as it is said to be is the buffer. -/
theorem window_whole (op : Nat) (b : List Byte) : window op b b.length = b := by simp [window]

theorem witness_DecodeWithoutContextAnswersMessageOrFault :
    IsFrame State.reset.params (window State.reset.opCount frame05 4) 0x01 0x05 0x00 [] ∧
    FrameFault State.reset.params (window State.reset.opCount [0x01, 0x01, 0x02] 3) .tooShort ∧
    FrameFault State.reset.params (window State.reset.opCount [0x01, 0x01, 0x1C, 0x00] 4)
      .declaredLenOverCapacity ∧
    FrameFault State.reset.params (window State.reset.opCount [0x01, 0x01, 0x02, 0xAA, 0xBB] 5) .truncated ∧
    FrameFault State.reset.params (window State.reset.opCount [0x01, 0x01, 0x02, 0xAA, 0xBB, 0x90] 6)
      .crcMismatch :=
  ⟨frame05_legal, fault_tooShort, fault_overCapacity, fault_truncated, fault_crcMismatch⟩

/-- The counter one below its top of 2^32 - 1 in the second clause. -/
theorem witness_DecodeAgainstContextMovesStatistics :
    (endpoint { periCtx with crcErrorCount := 4294967294 }).ctx =
      some { periCtx with crcErrorCount := 4294967294 } ∧
    IsFrame peri.params (window peri.opCount frame05 4) 0x01 0x05 0x00 [] ∧
    FrameFault peri.params (window peri.opCount [0x01, 0x01, 0x02] 3) .tooShort ∧
    4294967294 < peri.params.counterMax :=
  ⟨rfl, frame05_legal, fault_tooShort, by decide +kernel⟩

/-- Each behaviour at the top, with a DECODE, a RECEIVE and an arriving frame of these bytes. -/
theorem witness_CounterAtTopFollowsParameter : ∀ t : CounterTop,
    ∃ (s : State) (c : Context), s.ctx = some c ∧ FrameFault s.params [0x01, 0x01, 0x02] .tooShort ∧
      c.crcErrorCount = s.params.counterMax ∧ s.params.counterTop = t ∧
      window s.opCount [0x01, 0x01, 0x02] 3 = [0x01, 0x01, 0x02] ∧ c.role = .peripheral ∧
      presented s.opCount (.receive [0x01, 0x01, 0x02] 3) = some [0x01, 0x01, 0x02] ∧
      presented s.opCount (.frameGeneral 0x01 0x01 0x02 []) = some [0x01, 0x01, 0x02] :=
  fun t => ⟨{ endpoint { periCtx with crcErrorCount := 1 } with params := topParams t },
    { periCtx with crcErrorCount := 1 }, rfl, .inl ⟨rfl, by decide⟩, rfl, rfl,
    window_whole _ _, rfl, congrArg some (window_whole _ _), rfl⟩

/-- The largest payload, 27 bytes, into exactly its 31 bytes; and a decode that answers OK. -/
theorem witness_EncodeAndDecodeAreInverse :
    (msg 1 2 (List.replicate 27 0)).Held ∧ (msg 1 2 (List.replicate 27 0)).Valid Params.default ∧
    4 + (msg 1 2 (List.replicate 27 0)).dataLen.toNat ≤ 31 ∧ peri.ctx ≠ none ∧
    (∃ t m, exec (.decode frame05 4 false) State.reset = .next t ∧
      t.responses = State.reset.responses ++ [{ status := .ok, result := .message m }]) := by
  refine ⟨by unfold Message.Held; decide, by unfold Message.Valid; decide, by decide, by decide, ?_⟩
  have h : decodeFrame Params.default frame05 = .ok ⟨0x01, 0x05, 0x00, [], 0x2A⟩ := by decide +kernel
  refine ⟨State.reset.answered .ok (.message ⟨0x01, 0x05, 0x00, [], 0x2A⟩), _, ?_, rfl⟩
  have hw : window State.reset.opCount frame05 4 = frame05 := window_whole _ frame05
  simp only [exec, execDecode, Bool.false_eq_true, if_false, decodeAlone, hw]
  rw [show State.reset.params = Params.default from rfl, h]
  rfl

/-- The least capacity that has room, and the greatest that has not. -/
theorem witness_EmptyMessageIsFourBytes :
    (∃ m, exec (.msgInit 1 1) State.reset = .next (State.reset.answered .ok (.message m))) ∧
      4 ≤ 4 ∧ 3 < 4 := ⟨⟨_, rfl⟩, by decide, by decide⟩

/-- V-SRC-2: the last bit of the last byte; a length byte raised from 2 to 3 and to 130; and
lowered from 2 to 0, where the byte in the CRC's place, AA, is not the CRC of `01 01 00`, 7E. -/
theorem witness_SingleBitErrorsAreCaught : peri.ctx = some periCtx ∧
    periCtx.crcErrorCount < peri.params.counterMax ∧ (msg 1 1 [0xAA, 0xBB]).Valid peri.params ∧
    5 < (frameBytes 0 (msg 1 1 [0xAA, 0xBB])).length ∧ 2 < (frameBytes 0 (msg 1 1 [0xAA, 0xBB])).length ∧
    (msg 1 1 [0xAA, 0xBB]).dataLen.toNat < ((msg 1 1 [0xAA, 0xBB]).dataLen ^^^ (1#8 <<< 0)).toNat ∧
    (msg 1 1 [0xAA, 0xBB]).dataLen.toNat < ((msg 1 1 [0xAA, 0xBB]).dataLen ^^^ (1#8 <<< 7)).toNat ∧
    ((msg 1 1 [0xAA, 0xBB]).dataLen ^^^ (1#8 <<< 1)).toNat < (msg 1 1 [0xAA, 0xBB]).dataLen.toNat ∧
    (flipBit (frameBytes 0 (msg 1 1 [0xAA, 0xBB])) 2 1).getD 3 0 ≠
      crcBits ((flipBit (frameBytes 0 (msg 1 1 [0xAA, 0xBB])) 2 1).take 3) ∧
    State.reset.params.legal = true :=
  ⟨rfl, by decide +kernel, by unfold Message.Valid; decide, by decide +kernel, by decide +kernel,
    by decide, by decide, by decide, by decide +kernel, by decide⟩

/-- One state for each clause: no callback; a duplicate; room; a full table. -/
theorem witness_RegisterReplacesAppendsOrReportsFull :
    peri.ctx = some periCtx ∧ periCtx.Wf peri.params ∧ periCtx.used[0]? = some ⟨0x05, ⟨1⟩, ⟨9⟩⟩ ∧
    (∀ sl ∈ periCtx.used, sl.opcode ≠ 0x06) ∧ periCtx.handlerCount < peri.params.hcap ∧
    fullCtx.Wf fullParams ∧ (∀ sl ∈ fullCtx.used, sl.opcode ≠ 0x06) ∧
    fullCtx.handlerCount = fullParams.hcap :=
  ⟨rfl, periCtx_wf, by decide, by decide, by decide, fullCtx_wf, by decide, by decide⟩

theorem witness_RegisteredHandlerIsFound :
    ∃ t c', peri.ctx = some periCtx ∧ periCtx.Wf peri.params ∧
      exec (.register 0x06 ⟨4⟩ ⟨7⟩) peri = .next t ∧
      t.responses = peri.responses ++ [{ status := .ok, result := .none }] ∧ t.ctx = some c' :=
  ⟨_, _, rfl, periCtx_wf, rfl, rfl, rfl⟩

theorem witness_CallbackWiringWritesOneField : peri.ctx = some periCtx := rfl

/-- The first selector with no field, and the last. -/
theorem witness_CtxReadAnswersTheSelectedField :
    peri.ctx = some periCtx ∧ 8 ≤ (0x08 : Byte).toNat ∧ 8 ≤ (0xFF : Byte).toNat := by decide

theorem witness_BadFrameIsDroppedAndCounted :
    presented peri.opCount (.receive [0x01, 0x01, 0x02] 3) = some [0x01, 0x01, 0x02] ∧
    presented peri.opCount (.frameGeneral 0x01 0x01 0x02 []) = some [0x01, 0x01, 0x02] ∧
    peri.ctx = some periCtx ∧ periCtx.role = .peripheral ∧
    FrameFault peri.params [0x01, 0x01, 0x02] .tooShort ∧
    periCtx.crcErrorCount < peri.params.counterMax :=
  ⟨by decide, by decide, rfl, rfl, fault_tooShort, by decide +kernel⟩

/-- A frame with one payload byte, and one with none (`01 FE 00 A9`, V-ENC-10). -/
theorem witness_SetReplyFrameStagesItsFirstByte :
    presented peri.opCount (.frameSetReply 0x00 0x01 [0x80, 0xDC]) = some frameFE ∧
    peri.ctx = some periCtx ∧ periCtx.role = .peripheral ∧
    IsFrame peri.params frameFE 0x00 0xFE 0x01 [0x80] ∧
    IsFrame peri.params [0x01, 0xFE, 0x00, 0xA9] 0x01 0xFE 0x00 [] :=
  ⟨by decide, rfl, rfl, frameFE_legal, by decide, by decide, [], by decide +kernel⟩

theorem witness_RegisteredOpcodeCallsItsHandler :
    presented peri.opCount (.frameGeneral 0x01 0x05 0x00 [0x2A]) = some frame05 ∧
    peri.ctx = some periCtx ∧ periCtx.role = .peripheral ∧
    IsFrame peri.params frame05 0x01 0x05 0x00 [] ∧ (0x05 : Byte) ≠ 0xFE ∧ periCtx.Wf peri.params ∧
    (⟨0x05, ⟨1⟩, ⟨9⟩⟩ : Slot) ∈ periCtx.used ∧ peri.CallbackReturns :=
  ⟨by decide, rfl, rfl, frame05_legal, by decide, periCtx_wf, by decide, rfl⟩

theorem witness_UnregisteredOpcodeCallsOnMessage :
    presented peri.opCount (.frameGeneral 0x01 0x06 0x00 [0x15]) = some frame06 ∧
    peri.ctx = some periCtx ∧ periCtx.role = .peripheral ∧
    IsFrame peri.params frame06 0x01 0x06 0x00 [] ∧ (0x06 : Byte) ≠ 0xFE ∧
    (∀ sl ∈ periCtx.used, sl.opcode ≠ 0x06) ∧ periCtx.onMessage ≠ Cb.NONE ∧ peri.CallbackReturns :=
  ⟨by decide, rfl, rfl, frame06_legal, by decide, by decide, by decide, rfl⟩

/-- A peripheral just set up (V-SRC-14). -/
def freshPeri : Context := freshContext Params.default .peripheral 0x08

theorem witness_UnknownOpcodeIsIgnored :
    presented 0 (.receive frame06 4) = some frame06 ∧ (endpoint freshPeri).ctx = some freshPeri ∧
    freshPeri.role = .peripheral ∧ IsFrame (endpoint freshPeri).params frame06 0x01 0x06 0x00 [] ∧
    (0x06 : Byte) ≠ 0xFE ∧ (∀ sl ∈ freshPeri.used, sl.opcode ≠ 0x06) ∧ freshPeri.onMessage = Cb.NONE :=
  ⟨by decide, rfl, rfl, frame06_legal, by decide, by decide, rfl⟩

theorem witness_OneFrameHasAtMostOneConsequence :
    receives (.receive [] 0) ∧ peri.ctx = some periCtx ∧ ∃ t, exec (.receive [] 0) peri = .next t :=
  ⟨⟨[], by decide⟩, rfl, _, rfl⟩

/-- The counter one below its top, and at a top that saturates. -/
theorem witness_ArrivingBytesNeverHaltTheEndpoint :
    receives (.frameReservedFF 0 0 []) ∧ peri.ctx = some periCtx ∧ periCtx.role = .peripheral ∧
    peri.CallbackReturns ∧ 4294967294 < peri.params.counterMax ∧
    (topParams .saturate).counterTop ≠ .refuse :=
  ⟨⟨_, rfl⟩, rfl, rfl, rfl, by decide +kernel, by decide⟩

/-- The peripheral whose next callback issues an operation. -/
def reentering : State := endpoint periCtx { Answers.unscripted with reentries := [true] }

/-- A handler's frame, by RECEIVE and as an arriving frame, and a set `on_request`. -/
theorem witness_ReentryFromACallbackIsRefused : reentering.ctx = some periCtx ∧
    periCtx.role = .peripheral ∧ reentering.answers.popReentry.1 = true ∧
    presented reentering.opCount (.receive frame05 4) = some frame05 ∧
    presented reentering.opCount (.frameGeneral 0x01 0x05 0x00 [0x2A]) = some frame05 ∧
    IsFrame reentering.params frame05 0x01 0x05 0x00 [] ∧ (0x05 : Byte) ≠ 0xFE ∧
    (∃ sl ∈ periCtx.used, sl.opcode = 0x05) ∧ periCtx.onMessage ≠ Cb.NONE ∧
    periCtx.onRequest ≠ Cb.NONE :=
  ⟨rfl, rfl, rfl, by decide, by decide, frame05_legal, by decide, by decide, by decide, by decide⟩

theorem witness_RequestWithoutCallbackAnswersEmptyFrame :
    (endpoint freshPeri).params.legal = true ∧ (endpoint freshPeri).ctx = some freshPeri ∧
    freshPeri.role = .peripheral ∧ freshPeri.onRequest = Cb.NONE := by decide

theorem witness_RequestAnswersWhatTheCallbackFills :
    peri.params.legal = true ∧ peri.ctx = some periCtx ∧ periCtx.role = .peripheral ∧
    periCtx.onRequest ≠ Cb.NONE ∧ peri.CallbackReturns :=
  ⟨by decide, rfl, rfl, by decide, rfl⟩

/-- A payload one byte too long, and the longest that fits. -/
theorem witness_SendWritesOneFrameOrReports :
    (ctrl).params.legal = true ∧ (ctrl).ctx = some ctrlCtx ∧ ctrlCtx.role = .controller ∧
    (ctrl).params.maxPayload < (msg 1 1 (List.replicate 28 0)).dataLen.toNat ∧
    (msg 1 1 (List.replicate 27 0)).dataLen.toNat ≤ (ctrl).params.maxPayload := by decide

theorem witness_SetReplyReachesTheNextReply :
    (ctrl).params.legal = true ∧ 5 ≤ (ctrl).params.frameMax ∧ peri.params.legal = true ∧
    peri.params.frameMax = (ctrl).params.frameMax ∧ (ctrl).ctx = some ctrlCtx ∧
    ctrlCtx.role = .controller ∧ peri.ctx = some periCtx ∧ periCtx.role = .peripheral ∧
    periCtx.onRequest ≠ Cb.NONE ∧ peri.CallbackReturns ∧ (msg 0 0xFE [0x80]).typeId = 0 ∧
    (msg 0 0xFE [0x80]).opcode = 0xFE ∧ (msg 0 0xFE [0x80]).dataLen = 1 ∧
    (msg 0 0xFE [0x80]).data = [0x80] :=
  ⟨by decide, by decide, by decide, rfl, rfl, rfl, rfl, rfl, by decide, rfl, rfl, rfl, rfl, rfl⟩

/-- Two devices, at the last two addresses; one of them answers as V-SCN-8's does. -/
theorem witness_ScanFindsExactlyTheDevices :
    ∃ (s : State) (dev : List (Byte × List Byte)), s.ctx = some ctrlCtx ∧ ctrlCtx.role = .controller ∧
      s.busAnswers (scanRange 0xFD 0xFF) dev true Answers.unscripted ∧
      ∀ d ∈ dev, d.2.length ≤ s.params.frameMax := by
  refine ⟨ctrl { Answers.unscripted with
      probes := [false, true, true]
      reads := [[0x01, 0x00, 0x03, 0x01, 0x00, 0x00, 0x78], [0xFF, 0xFF, 0xFF]] },
    [(0xFE, [0x01, 0x00, 0x03, 0x01, 0x00, 0x00, 0x78]), (0xFF, [0xFF, 0xFF, 0xFF])], rfl, rfl, ?_, ?_⟩
  · unfold State.busAnswers
    decide
  · decide

theorem witness_ScanAlwaysCompletes :
    (ctrl).ctx = some ctrlCtx ∧ ctrlCtx.role = .controller ∧ (ctrl).AnswersInType :=
  ⟨rfl, rfl, by unfold State.AnswersInType; decide⟩

theorem witness_AbsentContextIsRefused : State.reset.ctx = none ∧
    needsNoContext (.decode [] 0 true) = false ∧ ¬ initsContext (.decode [] 0 true) :=
  ⟨rfl, rfl, fun ⟨_, _, h⟩ => by cases h⟩

theorem witness_OtherRolesPathsAreRefused : (ctrl).ctx = some ctrlCtx ∧ ctrlCtx.role = .controller ∧
    receives (.frameSetReply 0 0 []) ∧ peri.ctx = some periCtx ∧ periCtx.role = .peripheral :=
  ⟨rfl, rfl, ⟨_, rfl⟩, rfl, rfl⟩

theorem witness_ContextFreeOperationsIgnoreTheContext :
    needsNoContext (.msgInit 1 1) = true ∧ ∃ t, exec (.msgInit 1 1) peri = .next t := ⟨rfl, _, rfl⟩

theorem witness_EveryOperationAnswersOnce : ∃ t, exec (.msgInit 1 1) State.reset = .next t := ⟨_, rfl⟩

/-- With no Context, and with one. -/
theorem witness_FieldsAreWrittenOnlyAsTheTableSays :
    (∃ t, exec (.msgInit 1 1) State.reset = .next t) ∧ State.reset.ctx = none ∧
    (∃ t, exec (.setOnMessage ⟨4⟩) peri = .next t) ∧ peri.ctx = some periCtx ∧
    ¬ initsContext (.setOnMessage ⟨4⟩) ∧ ¬ registers (.setOnMessage ⟨4⟩) :=
  ⟨⟨_, rfl⟩, rfl, ⟨_, rfl⟩, rfl, fun ⟨_, _, h⟩ => (by cases h), fun ⟨_, _, _, h⟩ => (by cases h)⟩

theorem witness_OnlySetReplyFramesStage :
    (∃ t, exec (.frameReservedFF 0x01 0x00 []) peri = .next t) ∧ peri.ctx = some periCtx ∧
    ¬ initsContext (.frameReservedFF 0x01 0x00 []) ∧
    (∀ bytes n, Instr.frameReservedFF 0x01 0x00 [] ≠ .receive bytes n) ∧
    (∀ x l rest, Instr.frameReservedFF 0x01 0x00 [] ≠ .frameSetReply x l rest) :=
  ⟨⟨_, rfl⟩, rfl, fun ⟨_, _, h⟩ => (by cases h), fun _ _ h => (by cases h), fun _ _ _ h => (by cases h)⟩

theorem witness_CounterMovesByFailedDecodesOnly :
    ∃ t c', exec (.decode [] 0 true) peri = .next t ∧ peri.ctx = some periCtx ∧ t.ctx = some c' ∧
      ¬ initsContext (.decode [] 0 true) :=
  ⟨_, _, rfl, rfl, rfl, fun ⟨_, _, h⟩ => by cases h⟩

theorem witness_OperationsEndOnlyWithTheirStatuses :
    ∃ t, State.reset.params.legal = true ∧ exec (.decode [] 0 false) State.reset = .next t ∧
      t.responses = State.reset.responses ++ [{ status := .tooShort, result := .none }] :=
  ⟨_, by decide, rfl, rfl⟩

/-- An ending of each kind: full buffer, short read, a failed decode without a Context, and one
against a Context. -/
theorem witness_ErrorsRecordOnlyTheStatistics :
    (∃ t r, exec (.encode (msg 1 1 []) 3) State.reset = .next t ∧
      t.responses = State.reset.responses ++ [{ status := .bufferTooSmall, result := r }]) ∧
    Status.bufferTooSmall.statusCode ≠ 0x02 ∧
    (∃ t r, exec (.readU8 [] 0 0) State.reset = .next t ∧
      t.responses = State.reset.responses ++ [{ status := .readOutOfRange, result := r }]) ∧
    Status.readOutOfRange.statusCode ≠ 0x02 ∧
    (∃ t r, exec (.decode [] 0 false) peri = .next t ∧
      t.responses = peri.responses ++ [{ status := .tooShort, result := r }]) ∧
    (∀ bytes n, Instr.decode [] 0 false ≠ .decode bytes n true) ∧
    (∃ t r, exec (.decode [] 0 true) peri = .next t ∧
      t.responses = peri.responses ++ [{ status := .tooShort, result := r }]) ∧
    Status.tooShort ≠ .ok :=
  ⟨⟨_, _, rfl, rfl⟩, by decide, ⟨_, _, rfl, rfl⟩, by decide, ⟨_, _, rfl, rfl⟩,
    fun _ _ h => (by cases h), ⟨_, _, rfl, rfl⟩, by decide⟩

theorem witness_MsgSetReplyBuildsTheMessage :
    { State.reset with params := { Params.default with frameMax := 5 } }.params.legal = true ∧
      5 ≤ { State.reset with params := { Params.default with frameMax := 5 } }.params.frameMax := by decide

theorem witness_QueryStagesReadsAndDecodes :
    ∃ s : State, s.params.legal = true ∧ 5 ≤ s.params.frameMax ∧ s.ctx = some ctrlCtx ∧
      ctrlCtx.role = .controller ∧ s.answers.writes = true :: [] ∧ s.answers.reads = frame05 :: [] ∧
      frame05.length ≤ s.params.frameMax ∧ IsFrame s.params frame05 0x01 0x05 0x00 [] :=
  ⟨ctrl { Answers.unscripted with writes := [true], reads := [frame05] }, by decide, by decide, rfl,
    rfl, rfl, rfl, by decide, frame05_legal⟩

/-- Every operand at the port's bound. -/
theorem witness_DecodeOfEncodeIsTheInstruction :
    Instr.wellFormed (.scan 0xFF 0xFF true 0xFFFFFFFF ⟨0xFFFFFFFF⟩) = true ∧
      Instr.wellFormed (.register 0xFF ⟨0xFFFFFFFF⟩ ⟨0xFFFFFFFF⟩) = true := by decide

/-- The codes just beside assigned ones, and the last of all. -/
theorem witness_UnassignedCodesAreRefused : State.reset.params.legal = true ∧
    (State.reset.setInputs [.command [0x02]]).inputs = .command (0x02 :: []) :: [] ∧
    ∀ code ∈ ([0x00, 0x02, 0x1B, 0x3B, 0x41, 0xFF] : List Byte),
      code ∉ ([0x01, 0x10, 0x11, 0x12, 0x13, 0x14, 0x19, 0x1A, 0x1C, 0x20, 0x21, 0x30, 0x31, 0x32, 0x33,
        0x34, 0x38, 0x39, 0x3A, 0x40] : List Byte) := by decide

/-- Parameters that are not legal, an idle state, an input that decodes and one that does not. -/
theorem witness_StepRunsTheDecodedInstruction :
    { State.reset with params := { Params.default with frameMax := 3 } }.params.legal = false ∧
    State.reset.params.legal = true ∧ State.reset.inputs = [] ∧
    (State.reset.setInputs [.readRequested]).inputs = .readRequested :: [] ∧
    decode .readRequested = .ok .request ∧ decode (.command [0x02]) = .error (.unassignedCommand 0x02) := by
  decide

/-- A state with a Context that steps. -/
theorem witness_EveryStepKeepsTheInvariant :
    (peri.setInputs [.bytesArrived [0x01]]).Inv ∧
      ∃ t, step (peri.setInputs [.bytesArrived [0x01]]) = .next t :=
  ⟨⟨by decide, rfl, fun _ h => by cases h; exact periCtx_wf⟩, _, rfl⟩

end Sys2Proof.Tests
end

section
/-! PROOFS for 00_scope.md: one step (R6), the counter's top (R9, U4), the answer of every
operation (R17). First the facts they share: the CRC by any table is the reference CRC, a fault
is what the codec reports, and an instruction that presents bytes takes the receive path. -/

namespace Sys2Proof.Machine

open Sys2Proof

/-! ## One step -/

theorem step_illegal {s : State} (hp : s.params.legal = false) :
    step s = .refused .illegalParameters := by simp [step, hp]

theorem step_idle {s : State} (hp : s.params.legal = true) (hin : s.inputs = []) :
    step s = .next s := by simp [step, hp, hin]

theorem step_decoded {s : State} {input : Input} {rest : List Input} {i : Instr}
    (hp : s.params.legal = true) (hin : s.inputs = input :: rest) (hd : decode input = .ok i) :
    step s = exec i (s.setInputs rest) := by simp [step, hp, hin, hd]

theorem step_rejected {s : State} {input : Input} {rest : List Input} {e : DecodeReject}
    (hp : s.params.legal = true) (hin : s.inputs = input :: rest)
    (hd : decode input = .error e) : step s = .refused (refusalOf e) := by
  simp [step, hp, hin, hd]

/-- Settles O56, by the four ends of a step. -/
theorem stepRunsTheDecodedInstruction : Obligations.StepRunsTheDecodedInstruction := by
  intro s
  refine ⟨step_illegal, fun hp => ⟨step_idle hp, fun input rest hin => ⟨?_, ?_⟩⟩⟩
  · exact fun i hd => step_decoded hp hin hd
  · exact fun e hd => step_rejected hp hin hd

/-! ## The CRC tables and the reference CRC

Every form takes a byte by way of `c ^^^ b` alone, so that its agreement with the bit-serial form
is a fact about 256 values. -/

theorem crcNibbleHalf_twice (x : Byte) : crcNibbleHalf (crcNibbleHalf x) = crcShifts 8 x := by
  revert x
  decide +kernel

theorem crcByteTable_getD (x : Byte) : Config.crcByteTable.getD x.toNat 0 = crcShifts 8 x := by
  revert x
  decide +kernel

theorem crcNibbleStep_eq_crcBitStep : crcNibbleStep = crcBitStep :=
  funext₂ fun c b => crcNibbleHalf_twice (c ^^^ b)

theorem crcByteStep_eq_crcBitStep : crcByteStep = crcBitStep :=
  funext₂ fun c b => crcByteTable_getD (c ^^^ b)

/-- The table an implementation has cannot be observed (R13). -/
theorem crc8_eq_crcBits (impl : CrcImpl) (bytes : List Byte) : crc8 impl bytes = crcBits bytes := by
  cases impl with
  | nibble => simp only [crc8, crcNibbles, crcBits, crcNibbleStep_eq_crcBitStep]
  | byte => simp only [crc8, crcBytes, crcBits, crcByteStep_eq_crcBitStep]

/-! ## Frames, faults and the codec -/

/-- What the codec accepts begins with a legal frame (42_codec.md R139). -/
theorem isFrame_of_decodeFrame_ok {p : Params} {present : List Byte} {m : Message}
    (h : decodeFrame p present = .ok m) :
    IsFrame p present m.typeId m.opcode m.dataLen m.data := by
  obtain ⟨hlen, hmax, hcrc, extra, hpresent⟩ := decodeFrame_ok h
  rw [crc8_eq_crcBits] at hcrc
  exact ⟨hlen, hmax, extra, hcrc ▸ hpresent⟩

theorem exists_header_of_four_le {present : List Byte} (h : 4 ≤ present.length) :
    ∃ t o l b rest, present = t :: o :: l :: b :: rest := by
  match present, h with
  | t :: o :: l :: b :: rest, _ => exact ⟨t, o, l, b, rest, rfl⟩

/-- The codec reports the fault that the bytes have (R135, R212). -/
theorem decodeFrame_of_fault {p : Params} {present : List Byte} {st : Status}
    (h : FrameFault p present st) : decodeFrame p present = .error st := by
  obtain ⟨rfl, hshort⟩ | ⟨rfl, hfour, hover⟩ | ⟨rfl, hfour, hmax, htrunc⟩ |
    ⟨rfl, hfour, hmax, hwhole, hno⟩ := h
  · exact decodeFrame_short hshort
  · obtain ⟨t, o, l, b, rest, rfl⟩ := exists_header_of_four_le hfour
    have hover : p.maxPayload < l.toNat := hover
    simp [decodeFrame_cons, hover]
  · obtain ⟨t, o, l, b, rest, rfl⟩ := exists_header_of_four_le hfour
    have hmax : ¬ p.maxPayload < l.toNat := Nat.not_lt.mpr hmax
    have htrunc : rest.length < l.toNat := by simp at htrunc; omega
    simp [decodeFrame_cons, hmax, htrunc]
  · obtain ⟨t, o, l, b, rest, rfl⟩ := exists_header_of_four_le hfour
    have hmax : ¬ p.maxPayload < l.toNat := Nat.not_lt.mpr hmax
    have hwhole : ¬ rest.length < l.toNat := by simp at hwhole; omega
    cases hd : decodeFrame p (t :: o :: l :: b :: rest) with
    | ok m => exact absurd (isFrame_of_decodeFrame_ok hd) (hno _ _ _ _)
    | error st =>
      rw [decodeFrame_cons, if_neg hmax, if_neg hwhole] at hd
      split at hd
      · exact hd.symm
      · cases hd

/-! ## The receive path as an instruction -/

/-- The ten instructions that present bytes do what the receive path does with them. -/
theorem exec_of_presented {i : Instr} {s : State} {present : List Byte}
    (h : presented s.opCount i = some present) : exec i s = receivePath s present := by
  cases i
  case receive | frameGeneral | frameUnclassified80BF | frameUnclassifiedC0DF
      | frameUnclassifiedE0EF | frameUnclassifiedF0F7 | frameUnclassifiedF8FB
      | frameUnclassifiedFCFD | frameSetReply | frameReservedFF =>
    cases h
    rfl
  all_goals cases h

/-! ## A failed decode at the counter's top -/

theorem recordFailure_refuse {p : Params} {c : Context} (h : p.counterMax ≤ c.crcErrorCount)
    (ht : p.counterTop = .refuse) : recordFailure p c = .error .counterAtTop := by
  simp [recordFailure, Nat.not_lt.mpr h, ht]

theorem recordFailure_wrap {p : Params} {c : Context} (h : p.counterMax ≤ c.crcErrorCount)
    (ht : p.counterTop = .wrap) :
    recordFailure p c = .ok { c with crcErrorCount := 0, lastCrcOk := false } := by
  simp [recordFailure, Nat.not_lt.mpr h, ht]

theorem recordFailure_saturate {p : Params} {c : Context} (h : p.counterMax ≤ c.crcErrorCount)
    (ht : p.counterTop = .saturate) : recordFailure p c = .ok { c with lastCrcOk := false } := by
  simp [recordFailure, Nat.not_lt.mpr h, ht]

/-- The end that DECODE against the Context and the receive path share when the bytes have a
fault (R136, R156 step 2): the failure recorded, and the operation ended with its status. -/
def failedDecode (s : State) (c : Context) (ended : Status) : Result3 :=
  match recordFailure s.params c with
  | .error r => .refused r
  | .ok c' => respond (s.setCtx c') ended .none

theorem failedDecode_error {s : State} {c : Context} {r : Refusal}
    (h : recordFailure s.params c = .error r) (ended : Status) :
    failedDecode s c ended = .refused r := by simp [failedDecode, h]

theorem failedDecode_ok {s : State} {c c' : Context}
    (h : recordFailure s.params c = .ok c') (ended : Status) :
    failedDecode s c ended = .next ((s.setCtx c').answered ended .none) := by
  simp [failedDecode, h]

theorem exec_decode_of_fault {s : State} {c : Context} {bytes : List Byte} {n : Nat} {st : Status}
    (hc : s.ctx = some c) (hf : FrameFault s.params (window s.opCount bytes n) st) :
    exec (.decode bytes n true) s = failedDecode s c st := by
  have hd := decodeFrame_of_fault hf
  cases hr : recordFailure s.params c <;>
    simp [exec, execDecode, withContext_some hc, decodeAgainst, failedDecode, hd, hr]

theorem receivePath_of_fault {s : State} {c : Context} {present : List Byte} {st : Status}
    (hc : s.ctx = some c) (hrole : c.role = .peripheral) (hf : FrameFault s.params present st) :
    receivePath s present = failedDecode s c .ok := by
  have hd := decodeFrame_of_fault hf
  cases hr : recordFailure s.params c <;>
    simp [receivePath, withRole_some hc hrole, failedDecode, hd, hr]

/-- Settles O16: both kinds of instruction end in `failedDecode`, which does what the parameter
says. -/
theorem counterAtTopFollowsParameter : Obligations.CounterAtTopFollowsParameter := by
  intro s c present st hc hf htop atTop
  have atTop_of_failedDecode : ∀ i ended, exec i s = failedDecode s c ended → atTop i ended := by
    intro i ended hi
    have hle := htop.ge
    exact ⟨fun ht => hi.trans (failedDecode_error (recordFailure_refuse hle ht) ended),
      fun ht => hi.trans (failedDecode_ok (recordFailure_wrap hle ht) ended),
      fun ht => hi.trans (failedDecode_ok (recordFailure_saturate hle ht) ended)⟩
  constructor
  · rintro bytes n rfl
    exact atTop_of_failedDecode _ _ (exec_decode_of_fault hc hf)
  · intro hrole i hi
    exact atTop_of_failedDecode _ _
      ((exec_of_presented hi).trans (receivePath_of_fault hc hrole hf))

/-! ## Every operation answers once

`Within` is what holds while an operation runs, `AnsweredOnce` what holds when it has ended. -/

/-- While an operation that began at `s` runs: only the Context, the scripted answers and the
calls have moved, and calls were only added. -/
structure State.Within (s u : State) : Prop where
  params : u.params = s.params
  inputs : u.inputs = s.inputs
  opCount : u.opCount = s.opCount
  responses : u.responses = s.responses
  calls : ∃ cs, u.calls = s.calls ++ cs

/-- When an operation that began at `s` has ended: one response more, and one operation counted. -/
structure State.AnsweredOnce (s t : State) : Prop where
  params : t.params = s.params
  inputs : t.inputs = s.inputs
  opCount : t.opCount = s.opCount + 1
  responses : ∃ r, t.responses = s.responses ++ [r]
  calls : ∃ cs, t.calls = s.calls ++ cs

namespace State.Within

theorem refl (s : State) : s.Within s := ⟨rfl, rfl, rfl, rfl, [], by simp⟩

theorem setCtx {s u : State} (h : s.Within u) (c : Context) : s.Within (u.setCtx c) :=
  ⟨h.params, h.inputs, h.opCount, h.responses, h.calls⟩

theorem setAnswers {s u : State} (h : s.Within u) (a : Answers) : s.Within (u.setAnswers a) :=
  ⟨h.params, h.inputs, h.opCount, h.responses, h.calls⟩

theorem addCalls {s u : State} (h : s.Within u) (more : List EnvCall) :
    s.Within (u.addCalls more) := by
  obtain ⟨cs, hcs⟩ := h.calls
  exact ⟨h.params, h.inputs, h.opCount, h.responses, cs ++ more, by simp [hcs]⟩

theorem answered {s u : State} (h : s.Within u) (st : Status) (r : Result) :
    s.AnsweredOnce (u.answered st r) :=
  ⟨h.params, h.inputs, by simp [h.opCount], ⟨_, by simp [h.responses]; rfl⟩, h.calls⟩

theorem respond {s u t : State} (hu : s.Within u) {st : Status} {r : Result}
    (h : respond u st r = .next t) : s.AnsweredOnce t := by
  rw [respond_next] at h
  exact h ▸ hu.answered st r

theorem dispatchMessage {s u t : State} (hu : s.Within u) {c : Context} {m : Message}
    (h : dispatchMessage u c m = .next t) : s.AnsweredOnce t := by
  obtain ⟨-, -, rfl⟩ | ⟨-, -, rfl⟩ | ⟨sl, -, -, -, rfl⟩ | ⟨-, -, -, -, rfl⟩ | ⟨-, -, -, rfl⟩ :=
    dispatchMessage_next h
  · exact (hu.setCtx _).answered _ _
  · exact hu.answered _ _
  · exact ((hu.setAnswers _).addCalls _).answered _ _
  · exact ((hu.setAnswers _).addCalls _).answered _ _
  · exact hu.answered _ _

theorem replyWith {s u t : State} (hu : s.Within u) {op : Nat} {m : Message}
    (h : replyWith u op m = .next t) : s.AnsweredOnce t := by
  unfold Machine.replyWith at h
  split at h
  · exact hu.respond h
  · exact hu.respond h

end State.Within

theorem appendTo_answeredOnce {s t : State} {m : Message} {w v : Nat}
    (h : appendTo s m w v = .next t) : s.AnsweredOnce t := by
  obtain ⟨-, hend⟩ | ⟨-, hend⟩ := appendTo_cases s m w v
  · cases hend.symm.trans h
    exact (State.Within.refl s).answered _ _
  · cases hend.symm.trans h
    exact (State.Within.refl s).answered _ _

theorem receivePath_answeredOnce {s t : State} {present : List Byte}
    (h : receivePath s present = .next t) : s.AnsweredOnce t := by
  obtain ⟨c, -, -, ⟨st, c', -, -, rfl⟩ | ⟨m, -, hm⟩⟩ := receivePath_next h
  · exact ((State.Within.refl s).setCtx c').answered _ _
  · exact ((State.Within.refl s).setCtx _).dispatchMessage hm

theorem execAppendU24_answeredOnce {s t : State} {m : Message} {v : BitVec 24}
    (h : execAppendU24 m v s = .next t) : s.AnsweredOnce t := by
  unfold execAppendU24 at h
  split at h
  · exact appendTo_answeredOnce h
  · cases h

theorem execEncode_answeredOnce {s t : State} {m : Message} {cap : Nat}
    (h : execEncode m cap s = .next t) : s.AnsweredOnce t := by
  unfold execEncode at h
  split at h <;> exact (State.Within.refl s).respond h

theorem decodeAlone_answeredOnce {s t : State} {present : List Byte}
    (h : decodeAlone s present = .next t) : s.AnsweredOnce t := by
  unfold decodeAlone at h
  split at h <;> exact (State.Within.refl s).respond h

theorem decodeAgainst_answeredOnce {s t : State} {c : Context} {present : List Byte}
    (h : decodeAgainst s c present = .next t) : s.AnsweredOnce t := by
  unfold decodeAgainst at h
  split at h
  · split at h
    · cases h
    · exact ((State.Within.refl s).setCtx _).respond h
  · exact ((State.Within.refl s).setCtx _).respond h

theorem execDecode_answeredOnce {s t : State} {bytes : List Byte} {n : Nat} {useCtx : Bool}
    (h : execDecode bytes n useCtx s = .next t) : s.AnsweredOnce t := by
  unfold execDecode at h
  split at h
  · obtain ⟨c, -, hk⟩ := withContext_next h
    exact decodeAgainst_answeredOnce hk
  · exact decodeAlone_answeredOnce h

theorem execRegister_answeredOnce {s t : State} {opcode : Byte} {cb : Cb} {ud : Ud}
    (h : execRegister opcode cb ud s = .next t) : s.AnsweredOnce t := by
  obtain ⟨c, -, hk⟩ := withContext_next h
  split at hk
  · cases hk
  · split at hk
    · exact (State.Within.refl s).respond hk
    · exact ((State.Within.refl s).setCtx _).respond hk

theorem execCtxRead_answeredOnce {s t : State} {sel : Byte}
    (h : execCtxRead sel s = .next t) : s.AnsweredOnce t := by
  obtain ⟨c, -, hk⟩ := withContext_next h
  split at hk
  · cases hk
  · exact (State.Within.refl s).respond hk

theorem execRequest_answeredOnce {s t : State}
    (h : execRequest s = .next t) : s.AnsweredOnce t := by
  obtain ⟨c, -, -, hk⟩ := withRole_next h
  simp only at hk
  split at hk
  · obtain ⟨-, hreply⟩ := withCallback_next hk
    exact ((((State.Within.refl s).setAnswers _).addCalls _).setAnswers _).replyWith hreply
  · exact (State.Within.refl s).replyWith hk

theorem execSend_answeredOnce {s t : State} {dest : Byte} {m : Message}
    (h : execSend dest m s = .next t) : s.AnsweredOnce t := by
  obtain ⟨c, -, -, hk⟩ := withRole_next h
  split at hk
  · exact (State.Within.refl s).respond hk
  · simp only at hk
    split at hk <;> exact (((State.Within.refl s).setAnswers _).addCalls _).respond hk

theorem execScan_answeredOnce {s t : State} {start stop : Byte} {strict : Bool} {cap : Nat}
    {timeout : Timeout} (h : execScan start stop strict cap timeout s = .next t) :
    s.AnsweredOnce t := by
  obtain ⟨c, -, -, hk⟩ := withRole_next h
  split at hk
  · cases hk
  · exact (((State.Within.refl s).setAnswers _).addCalls _).respond hk

/-- Whatever the instruction, an operation that ends answers once (R17, 30_encoding.md R83). -/
theorem exec_answeredOnce {i : Instr} {s t : State} (h : exec i s = .next t) :
    s.AnsweredOnce t := by
  cases i
  case crc8 | msgInit => exact (State.Within.refl s).respond h
  case ctxInit => exact ((State.Within.refl s).setCtx _).respond h
  case appendU8 | appendU16 | appendU32 => exact appendTo_answeredOnce h
  case appendU24 => exact execAppendU24_answeredOnce h
  case readU8 | readU16 | readU32 =>
    simp only [exec, execReadU8, execReadU16, execReadU32] at h
    split at h <;> exact (State.Within.refl s).respond h
  case encode => exact execEncode_answeredOnce h
  case decode => exact execDecode_answeredOnce h
  case register => exact execRegister_answeredOnce h
  case setOnMessage | setOnRequest =>
    obtain ⟨c, -, hk⟩ := withContext_next h
    exact ((State.Within.refl s).setCtx _).respond hk
  case ctxRead => exact execCtxRead_answeredOnce h
  case request => exact execRequest_answeredOnce h
  case send => exact execSend_answeredOnce h
  case scan => exact execScan_answeredOnce h
  case receive | frameGeneral | frameUnclassified80BF | frameUnclassifiedC0DF
      | frameUnclassifiedE0EF | frameUnclassifiedF0F7 | frameUnclassifiedF8FB
      | frameUnclassifiedFCFD | frameSetReply | frameReservedFF =>
    exact receivePath_answeredOnce h

/-- Settles O43, by `exec_answeredOnce`. -/
theorem everyOperationAnswersOnce : Obligations.EveryOperationAnswersOnce := by
  intro i s t h
  obtain ⟨hparams, hinputs, hcount, hresponse, hcalls⟩ := exec_answeredOnce h
  exact ⟨hparams, hinputs, hcount, hresponse, hcalls⟩

end Sys2Proof.Machine
end

section
/-! PROOFS for 10_state.md: what an operation can do with the Context (R39), which answers carry
valid Messages (R24), and the invariant (R30 to R34). Every instruction is walked through once,
in `exec_opEnd`; the statements about single fields and the invariant are read off what that
lemma says. -/

namespace Sys2Proof.Machine

open Sys2Proof

/-! ## Set-up and polling -/

/-- Settles O20. -/
theorem ctxInitZeroesTheContext : Obligations.CtxInitZeroesTheContext := fun _ _ _ => rfl

theorem exec_ctxRead_of_field {s : State} {c : Context} {sel : Byte} {v : Result}
    (hc : s.ctx = some c) (hv : fieldValue sel.toNat c = some v) :
    exec (.ctxRead sel) s = .next (s.answered .ok v) := by
  simp [exec, execCtxRead, withContext_some hc, hv, respond_eq]

theorem exec_ctxRead_of_no_field {s : State} {c : Context} {sel : Byte}
    (hc : s.ctx = some c) (hv : fieldValue sel.toNat c = none) :
    exec (.ctxRead sel) s = .refused (.unknownSelector sel) := by
  simp [exec, execCtxRead, withContext_some hc, hv]

theorem fieldValue_of_eight_le {sel : Nat} (h : 8 ≤ sel) (c : Context) :
    fieldValue sel c = none := by
  obtain ⟨n, rfl⟩ := Nat.exists_eq_add_of_le' h
  rfl

theorem fieldValue_ne_message {sel : Nat} {c : Context} {v : Result}
    (h : fieldValue sel c = some v) (m : Message) : v ≠ .message m := by
  unfold fieldValue at h
  split at h <;> cases h <;> nofun

theorem roleBit_eq (r : Role) : roleBit r = (r == .peripheral) := by
  cases r <;> rfl

/-- Settles O24, selector by selector. -/
theorem ctxReadAnswersTheSelectedField : Obligations.CtxReadAnswersTheSelectedField := by
  intro s c hc
  refine ⟨?_, exec_ctxRead_of_field hc rfl, exec_ctxRead_of_field hc rfl,
    exec_ctxRead_of_field hc rfl, exec_ctxRead_of_field hc rfl, exec_ctxRead_of_field hc rfl,
    exec_ctxRead_of_field hc rfl, exec_ctxRead_of_field hc rfl, ?_⟩
  · rw [← roleBit_eq]
    exact exec_ctxRead_of_field hc rfl
  · exact fun sel hsel => exec_ctxRead_of_no_field hc (fieldValue_of_eight_le hsel c)

/-! ## The codec and the statistics, as the proofs below cite them -/

theorem decodeFrame_valid {p : Params} {present : List Byte} {m : Message}
    (h : decodeFrame p present = .ok m) : m.Valid p := by
  obtain ⟨-, hmax, -, -⟩ := decodeFrame_ok h
  exact hmax

theorem decodeFrame_opcode {p : Params} {present : List Byte} {m : Message}
    (h : decodeFrame p present = .ok m) : m.opcode = present.getD 1 0 := by
  obtain ⟨-, -, -, extra, rfl⟩ := decodeFrame_ok h
  rfl

/-- A counted failure writes the two statistics alone (R208). -/
theorem recordFailure_eq {p : Params} {c c' : Context} (h : recordFailure p c = .ok c') :
    c' = { c with crcErrorCount := c'.crcErrorCount, lastCrcOk := false } := by
  obtain ⟨heq, -⟩ := recordFailure_ok h
  exact heq

/-- A registration writes the table and its count alone (43_dispatch.md R152). -/
theorem registered_eq {p : Params} {c c' : Context} {sl : Slot}
    (h : c.registered p sl = some c') :
    c' = { c with handlerTable := c'.handlerTable, handlerCount := c'.handlerCount } := by
  obtain ⟨k, u, -, -, rfl⟩ | ⟨-, -, rfl⟩ := registered_some h <;> rfl

/-! ## What an operation can do with the Context -/

/-- The writes of a present Context (R39), each with the instruction that may make it: from `c`
to the Context after the operation. -/
inductive ContextMove (i : Instr) (s : State) (c : Context) : Context → Prop
  | kept : ContextMove i s c c
  | registered {o : Byte} {cb : Cb} {ud : Ud} {c' : Context} (hi : i = .register o cb ud)
      (hcb : cb ≠ Cb.NONE) (hreg : c.registered s.params ⟨o, cb, ud⟩ = some c') :
      ContextMove i s c c'
  | onMessageSet {cb : Cb} (hi : i = .setOnMessage cb) :
      ContextMove i s c { c with onMessage := cb }
  | onRequestSet {cb : Cb} (hi : i = .setOnRequest cb) :
      ContextMove i s c { c with onRequest := cb }
  | decodeFailed {c' : Context} (hi : decodesAgainst i)
      (hfail : recordFailure s.params c = .ok c') : ContextMove i s c c'
  | decoded (hi : decodesAgainst i) : ContextMove i s c (recordSuccess c)
  | staged {present : List Byte} {m : Message} (hi : presented s.opCount i = some present)
      (hdec : decodeFrame s.params present = .ok m) (hop : m.opcode = 0xFE#8) :
      ContextMove i s c { recordSuccess c with requestedOpcode := m.data.headD 0 }

/-- How an operation other than CTX_INIT ends: an absent Context stays absent and a present one
makes one of the moves, and a Message answered with OK is valid. -/
structure OpEnd (i : Instr) (s t : State) : Prop where
  ctx : Option.Rel (ContextMove i s) s.ctx t.ctx
  valid : ∀ m, t.responses = s.responses ++ [{ status := .ok, result := .message m }] →
    m.Valid s.params

theorem receives_of_presented {op : Nat} {i : Instr} {present : List Byte}
    (h : presented op i = some present) : receives i := by
  cases i
  case receive | frameGeneral | frameUnclassified80BF | frameUnclassifiedC0DF
      | frameUnclassifiedE0EF | frameUnclassifiedF0F7 | frameUnclassifiedF8FB
      | frameUnclassifiedFCFD | frameSetReply | frameReservedFF => exact ⟨_, rfl⟩
  all_goals cases h

theorem ContextMove.rel_kept (i : Instr) (s : State) (x : Option Context) :
    Option.Rel (ContextMove i s) x x := by
  cases x with
  | none => exact .none
  | some c => exact .some .kept

theorem ContextMove.rel_some {i : Instr} {s u : State} {c c' : Context} (hc : s.ctx = some c)
    (hu : u.ctx = some c') (hmove : ContextMove i s c c') :
    Option.Rel (ContextMove i s) s.ctx u.ctx := by
  rw [hc, hu]
  exact .some hmove

section
variable {i : Instr} {s t u : State}

namespace OpEnd

theorem answered {st : Status} {r : Result} (hu : u.responses = s.responses)
    (hctx : Option.Rel (ContextMove i s) s.ctx u.ctx)
    (hr : ∀ m, st = .ok → r = .message m → m.Valid s.params) : OpEnd i s (u.answered st r) := by
  refine ⟨hctx, fun m hm => ?_⟩
  rw [State.answered_responses, hu] at hm
  simp only [List.append_cancel_left_eq, List.cons.injEq, Response.mk.injEq, and_true] at hm
  obtain ⟨hst, hmessage⟩ := hm
  exact hr m hst hmessage

/-- An operation that leaves the Context alone. -/
theorem kept {st : Status} {r : Result} (h : respond u st r = .next t)
    (hu : u.responses = s.responses) (hctx : u.ctx = s.ctx)
    (hr : ∀ m, st = .ok → r = .message m → m.Valid s.params) : OpEnd i s t := by
  rw [respond_next] at h
  exact h ▸ answered hu (hctx ▸ ContextMove.rel_kept i s u.ctx) hr

/-- An operation that moves the Context and answers no Message. -/
theorem moved {st : Status} {c c' : Context} (hu : u.responses = s.responses)
    (hc : s.ctx = some c) (hu' : u.ctx = some c') (hmove : ContextMove i s c c') :
    OpEnd i s (u.answered st .none) :=
  answered hu (ContextMove.rel_some hc hu' hmove) nofun

end OpEnd

/-! Operations that leave the Context alone. -/

/-- The length byte of the new Message is at most the sum that the append tested. -/
theorem appendTo_opEnd {m : Message} {w v : Nat} (h : appendTo s m w v = .next t) :
    OpEnd i s t := by
  obtain ⟨-, hend⟩ | ⟨hfits, hend⟩ := appendTo_cases s m w v
  · exact .kept (hend.symm.trans h) rfl rfl nofun
  · refine .kept (hend.symm.trans h) rfl rfl fun m' _ hm => ?_
    cases hm
    calc (BitVec.ofNat 8 (m.dataLen.toNat + w)).toNat
      _ = (m.dataLen.toNat + w) % 2 ^ 8 := BitVec.toNat_ofNat ..
      _ ≤ m.dataLen.toNat + w := Nat.mod_le ..
      _ ≤ s.params.maxPayload := hfits

theorem execMsgInit_opEnd {typeId opcode : Byte} (h : execMsgInit typeId opcode s = .next t) :
    OpEnd i s t := by
  refine .kept h rfl rfl fun m _ hm => ?_
  cases hm
  exact Nat.zero_le _

theorem execAppendU24_opEnd {m : Message} {v : BitVec 24} (h : execAppendU24 m v s = .next t) :
    OpEnd i s t := by
  unfold execAppendU24 at h
  split at h
  · exact appendTo_opEnd h
  · cases h

theorem execEncode_opEnd {m : Message} {cap : Nat} (h : execEncode m cap s = .next t) :
    OpEnd i s t := by
  unfold execEncode at h
  split at h <;> exact .kept h rfl rfl nofun

theorem execCtxRead_opEnd {sel : Byte} (h : execCtxRead sel s = .next t) : OpEnd i s t := by
  obtain ⟨c, -, hk⟩ := withContext_next h
  split at hk
  · cases hk
  · next hv => exact .kept hk rfl rfl fun m _ hm => absurd hm (fieldValue_ne_message hv m)

theorem replyWith_opEnd {op : Nat} {m : Message} (h : replyWith u op m = .next t)
    (hu : u.responses = s.responses) (hctx : u.ctx = s.ctx) : OpEnd i s t := by
  unfold replyWith at h
  split at h <;> exact .kept h hu hctx nofun

theorem execRequest_opEnd (h : execRequest s = .next t) : OpEnd i s t := by
  obtain ⟨c, -, -, hk⟩ := withRole_next h
  simp only at hk
  split at hk
  · obtain ⟨-, hreply⟩ := withCallback_next hk
    exact replyWith_opEnd hreply rfl rfl
  · exact replyWith_opEnd hk rfl rfl

theorem execSend_opEnd {dest : Byte} {m : Message} (h : execSend dest m s = .next t) :
    OpEnd i s t := by
  obtain ⟨c, -, -, hk⟩ := withRole_next h
  split at hk
  · exact .kept hk rfl rfl nofun
  · simp only at hk
    split at hk <;> exact .kept hk rfl rfl nofun

theorem execScan_opEnd {start stop : Byte} {strict : Bool} {cap : Nat} {timeout : Timeout}
    (h : execScan start stop strict cap timeout s = .next t) : OpEnd i s t := by
  obtain ⟨c, -, -, hk⟩ := withRole_next h
  split at hk
  · cases hk
  · exact .kept hk rfl rfl nofun

theorem decodeAlone_opEnd {present : List Byte} (h : decodeAlone s present = .next t) :
    OpEnd i s t := by
  unfold decodeAlone at h
  split at h
  · exact .kept h rfl rfl nofun
  · next m hdec =>
    refine .kept h rfl rfl fun m' _ hm => ?_
    cases hm
    exact decodeFrame_valid hdec

/-! Operations that write it. -/

theorem decodeAgainst_opEnd {c : Context} {present : List Byte} (hi : decodesAgainst i)
    (hc : s.ctx = some c) (h : decodeAgainst s c present = .next t) : OpEnd i s t := by
  unfold decodeAgainst at h
  split at h
  · split at h
    · cases h
    · next c' hfail =>
      rw [respond_next] at h
      exact h ▸ .moved rfl hc rfl (.decodeFailed hi hfail)
  · next m hdec =>
    rw [respond_next] at h
    refine h ▸ .answered rfl (ContextMove.rel_some hc rfl (.decoded hi)) fun m' _ hm => ?_
    cases hm
    exact decodeFrame_valid hdec

theorem execDecode_opEnd {bytes : List Byte} {n : Nat} {useCtx : Bool}
    (h : execDecode bytes n useCtx s = .next t) : OpEnd (.decode bytes n useCtx) s t := by
  cases useCtx with
  | false => exact decodeAlone_opEnd h
  | true =>
    obtain ⟨c, hc, hk⟩ := withContext_next h
    exact decodeAgainst_opEnd (.inl ⟨bytes, n, rfl⟩) hc hk

theorem execRegister_opEnd {o : Byte} {cb : Cb} {ud : Ud}
    (h : execRegister o cb ud s = .next t) : OpEnd (.register o cb ud) s t := by
  obtain ⟨c, hc, hk⟩ := withContext_next h
  split at hk
  · cases hk
  · next hcb =>
    split at hk
    · exact .kept hk rfl rfl nofun
    · next c' hreg =>
      rw [respond_next] at hk
      exact hk ▸ .moved rfl hc rfl (.registered rfl hcb hreg)

theorem execSetOnMessage_opEnd {cb : Cb} (h : execSetOnMessage cb s = .next t) :
    OpEnd (.setOnMessage cb) s t := by
  obtain ⟨c, hc, hk⟩ := withContext_next h
  rw [respond_next] at hk
  exact hk ▸ .moved rfl hc rfl (.onMessageSet rfl)

theorem execSetOnRequest_opEnd {cb : Cb} (h : execSetOnRequest cb s = .next t) :
    OpEnd (.setOnRequest cb) s t := by
  obtain ⟨c, hc, hk⟩ := withContext_next h
  rw [respond_next] at hk
  exact hk ▸ .moved rfl hc rfl (.onRequestSet rfl)

/-- A bad frame is counted; a good one is counted, and staged where it is a SET_REPLY with a
payload (43_dispatch.md R156). -/
theorem receivePath_opEnd {present : List Byte} (hi : presented s.opCount i = some present)
    (h : receivePath s present = .next t) : OpEnd i s t := by
  have hi' : decodesAgainst i := .inr (receives_of_presented hi)
  obtain ⟨c, hc, -, ⟨st, c', -, hfail, rfl⟩ | ⟨m, hdec, hm⟩⟩ := receivePath_next h
  · exact .moved rfl hc rfl (.decodeFailed hi' hfail)
  · obtain ⟨hop, -, rfl⟩ | ⟨-, -, rfl⟩ | ⟨sl, -, -, -, rfl⟩ | ⟨-, -, -, -, rfl⟩ | ⟨-, -, -, rfl⟩ :=
      dispatchMessage_next hm
    · exact .moved rfl hc rfl (.staged hi hdec hop)
    all_goals exact .moved rfl hc rfl (.decoded hi')

/-- The walk through the instructions: how each of them ends (R39, R24). -/
theorem exec_opEnd (hinit : ¬ initsContext i) (h : exec i s = .next t) : OpEnd i s t := by
  cases i
  case ctxInit => exact absurd ⟨_, _, rfl⟩ hinit
  case crc8 => exact .kept h rfl rfl nofun
  case msgInit => exact execMsgInit_opEnd h
  case appendU8 | appendU16 | appendU32 => exact appendTo_opEnd h
  case appendU24 => exact execAppendU24_opEnd h
  case readU8 | readU16 | readU32 =>
    simp only [exec, execReadU8, execReadU16, execReadU32] at h
    split at h <;> exact .kept h rfl rfl nofun
  case encode => exact execEncode_opEnd h
  case decode => exact execDecode_opEnd h
  case register => exact execRegister_opEnd h
  case setOnMessage => exact execSetOnMessage_opEnd h
  case setOnRequest => exact execSetOnRequest_opEnd h
  case ctxRead => exact execCtxRead_opEnd h
  case request => exact execRequest_opEnd h
  case send => exact execSend_opEnd h
  case scan => exact execScan_opEnd h
  case receive | frameGeneral | frameUnclassified80BF | frameUnclassifiedC0DF
      | frameUnclassifiedE0EF | frameUnclassifiedF0F7 | frameUnclassifiedF8FB
      | frameUnclassifiedFCFD | frameSetReply | frameReservedFF =>
    exact receivePath_opEnd rfl h

theorem exec_ctx_none (hinit : ¬ initsContext i) (h : exec i s = .next t) (hc : s.ctx = none) :
    t.ctx = none := by
  have hrel := (exec_opEnd hinit h).ctx
  rw [hc] at hrel
  generalize t.ctx = x at hrel
  cases hrel
  rfl

theorem exec_ctx_some {c : Context} (hinit : ¬ initsContext i) (h : exec i s = .next t)
    (hc : s.ctx = some c) : ∃ c', t.ctx = some c' ∧ ContextMove i s c c' := by
  have hrel := (exec_opEnd hinit h).ctx
  rw [hc] at hrel
  generalize t.ctx = x at hrel
  cases hrel with
  | some hmove => exact ⟨_, rfl, hmove⟩

end

/-- Settles O11: CTX_INIT answers no Message, and every other instruction by `exec_opEnd`. -/
theorem answeredMessagesAreValid : Obligations.AnsweredMessagesAreValid := by
  intro i s t m h hm
  by_cases hinit : initsContext i
  · obtain ⟨r, a, rfl⟩ := hinit
    rw [ctxInitZeroesTheContext] at h
    cases h
    simp at hm
  · exact (exec_opEnd hinit h).valid m hm

/-! ## Which field which move writes -/

namespace ContextMove

variable {i : Instr} {s : State} {c c' : Context}

theorem identity_eq (h : ContextMove i s c c') : c'.role = c.role ∧ c'.address = c.address := by
  cases h with
  | registered _ _ hreg => rw [registered_eq hreg]; exact ⟨rfl, rfl⟩
  | decodeFailed _ hfail => rw [recordFailure_eq hfail]; exact ⟨rfl, rfl⟩
  | kept | onMessageSet | onRequestSet | decoded | staged => exact ⟨rfl, rfl⟩

theorem table_eq (h : ContextMove i s c c') (hi : ¬ registers i) :
    c'.handlerTable = c.handlerTable ∧ c'.handlerCount = c.handlerCount := by
  cases h with
  | registered hreg => exact absurd ⟨_, _, _, hreg⟩ hi
  | decodeFailed _ hfail => rw [recordFailure_eq hfail]; exact ⟨rfl, rfl⟩
  | kept | onMessageSet | onRequestSet | decoded | staged => exact ⟨rfl, rfl⟩

/-- A staged opcode is of a SET_REPLY frame that the instruction presented (R33). -/
theorem requestedOpcode_cases (h : ContextMove i s c c') :
    c'.requestedOpcode = c.requestedOpcode ∨
      ∃ present m, presented s.opCount i = some present ∧
        decodeFrame s.params present = .ok m ∧ m.opcode = 0xFE#8 := by
  cases h with
  | registered _ _ hreg => rw [registered_eq hreg]; exact .inl rfl
  | decodeFailed _ hfail => rw [recordFailure_eq hfail]; exact .inl rfl
  | staged hi hdec hop => exact .inr ⟨_, _, hi, hdec, hop⟩
  | kept | onMessageSet | onRequestSet | decoded => exact .inl rfl

theorem statistics_eq (h : ContextMove i s c c') (hi : ¬ decodesAgainst i) :
    c'.crcErrorCount = c.crcErrorCount ∧ c'.lastCrcOk = c.lastCrcOk := by
  cases h with
  | registered _ _ hreg => rw [registered_eq hreg]; exact ⟨rfl, rfl⟩
  | decodeFailed hdec | decoded hdec => exact absurd hdec hi
  | staged hrec => exact absurd (.inr (receives_of_presented hrec)) hi
  | kept | onMessageSet | onRequestSet => exact ⟨rfl, rfl⟩

theorem onMessage_eq (h : ContextMove i s c c') (hi : ∀ cb, i ≠ .setOnMessage cb) :
    c'.onMessage = c.onMessage := by
  cases h with
  | registered _ _ hreg => rw [registered_eq hreg]
  | onMessageSet hset => exact absurd hset (hi _)
  | decodeFailed _ hfail => rw [recordFailure_eq hfail]
  | kept | onRequestSet | decoded | staged => rfl

theorem onRequest_eq (h : ContextMove i s c c') (hi : ∀ cb, i ≠ .setOnRequest cb) :
    c'.onRequest = c.onRequest := by
  cases h with
  | registered _ _ hreg => rw [registered_eq hreg]
  | onRequestSet hset => exact absurd hset (hi _)
  | decodeFailed _ hfail => rw [recordFailure_eq hfail]
  | kept | onMessageSet | decoded | staged => rfl

theorem crcErrorCount_cases (h : ContextMove i s c c') :
    c'.crcErrorCount = c.crcErrorCount ∨
    (c'.crcErrorCount = c.crcErrorCount + 1 ∧ c'.lastCrcOk = false) ∨
    (s.params.counterTop = .wrap ∧ s.params.counterMax ≤ c.crcErrorCount ∧
      c'.crcErrorCount = 0) := by
  cases h with
  | registered _ _ hreg => rw [registered_eq hreg]; exact .inl rfl
  | decodeFailed _ hfail =>
    obtain ⟨heq, ⟨-, hup⟩ | ⟨htop, hwrap, hzero⟩ | ⟨-, -, hsame⟩⟩ := recordFailure_ok hfail
    · exact .inr (.inl ⟨hup, by rw [heq]⟩)
    · exact .inr (.inr ⟨hwrap, htop, hzero⟩)
    · exact .inl hsame
  | kept | onMessageSet | onRequestSet | decoded | staged => exact .inl rfl

end ContextMove

/-- Settles O44, field by field. -/
theorem fieldsAreWrittenOnlyAsTheTableSays : Obligations.FieldsAreWrittenOnlyAsTheTableSays := by
  intro i s t h hinit
  refine ⟨exec_ctx_none hinit h, fun c hc => ?_⟩
  obtain ⟨c', htc, hmove⟩ := exec_ctx_some hinit h hc
  obtain ⟨hrole, haddress⟩ := hmove.identity_eq
  refine ⟨c', htc, hrole, haddress, hmove.table_eq, fun hrec => ?_, hmove.statistics_eq,
    hmove.onMessage_eq, hmove.onRequest_eq⟩
  obtain hsame | ⟨present, m, hi, -, -⟩ := hmove.requestedOpcode_cases
  · exact hsame
  · exact absurd (receives_of_presented hi) hrec

/-- Settles O46, by the move that the operation made. -/
theorem counterMovesByFailedDecodesOnly : Obligations.CounterMovesByFailedDecodesOnly := by
  intro i s t c c' h hc htc hinit
  obtain ⟨c₁, htc₁, hmove⟩ := exec_ctx_some hinit h hc
  cases htc.symm.trans htc₁
  exact hmove.crcErrorCount_cases

/-! ## Only SET_REPLY frames carry the opcode of SET_REPLY -/

/-- A class that leaves the low `k` bits open and clears bit `k` (30_encoding.md R89) holds no
opcode in which bit `k` is set. -/
theorem classOpcode_ne_of_bit {k : Nat} {fixed op : Byte} (low : BitVec k)
    (hfixed : fixed.getLsbD k = false) (hop : op.getLsbD k = true) : classOpcode fixed low ≠ op := by
  have hclear : (classOpcode fixed low).getLsbD k = false := by
    simp [classOpcode, hfixed, BitVec.getLsbD_setWidth]
  rintro rfl
  exact Bool.false_ne_true (hclear.symm.trans hop)

theorem presented_opcode_ne_setReply {op : Nat} {i : Instr} {present : List Byte}
    (hi : presented op i = some present) (hrec : ∀ bytes n, i ≠ .receive bytes n)
    (hset : ∀ x l rest, i ≠ .frameSetReply x l rest) : present.getD 1 0 ≠ 0xFE#8 := by
  cases i
  case receive => exact absurd rfl (hrec _ _)
  case frameSetReply => exact absurd rfl (hset _ _ _)
  case frameReservedFF =>
    cases hi
    exact show 0xFF#8 ≠ 0xFE#8 by decide
  case frameGeneral | frameUnclassified80BF | frameUnclassifiedC0DF | frameUnclassifiedE0EF
      | frameUnclassifiedF0F7 | frameUnclassifiedF8FB | frameUnclassifiedFCFD =>
    cases hi
    exact classOpcode_ne_of_bit _ rfl rfl
  all_goals cases hi

/-- Settles O45: an opcode is staged by a frame that has the opcode of SET_REPLY, which the
other eight classes never have. -/
theorem onlySetReplyFramesStage : Obligations.OnlySetReplyFramesStage := by
  intro i s t c h hc hinit hrec hset
  obtain ⟨c', htc, hmove⟩ := exec_ctx_some hinit h hc
  refine ⟨c', htc, ?_⟩
  obtain hsame | ⟨present, m, hi, hdec, hop⟩ := hmove.requestedOpcode_cases
  · exact hsame
  · exact absurd ((decodeFrame_opcode hdec).symm.trans hop)
      (presented_opcode_ne_setReply hi hrec hset)

/-! ## The invariant -/

theorem freshContext_wf (p : Params) (r : Role) (a : Byte) : (freshContext p r a).Wf p where
  tableSize := List.length_replicate
  countInTable := Nat.zero_le _
  opcodesDistinct := by simp
  callbacksSet := by simp
  freeSlotsZero _ hsl := List.eq_of_mem_replicate hsl
  counterInWidth := Nat.zero_le _

namespace Context.Wf

variable {p : Params} {c c' : Context}

/-- Only the table, its count and the counter take part in well-formedness. -/
theorem of_sameTable (h : c.Wf p) (htable : c'.handlerTable = c.handlerTable)
    (hcount : c'.handlerCount = c.handlerCount) (hcrc : c'.crcErrorCount ≤ p.counterMax) :
    c'.Wf p := by
  have hused : c'.used = c.used := by rw [Context.used, htable, hcount, Context.used]
  exact ⟨htable ▸ h.tableSize, hcount ▸ h.countInTable, hused ▸ h.opcodesDistinct,
    hused ▸ h.callbacksSet, by rw [htable, hcount]; exact h.freeSlotsZero, hcrc⟩

theorem of_recordFailure (h : c.Wf p) (hfail : recordFailure p c = .ok c') : c'.Wf p := by
  obtain ⟨heq, hcrc⟩ := recordFailure_ok hfail
  have hwidth := h.counterInWidth
  exact h.of_sameTable (by rw [heq]) (by rw [heq]) (by omega)

/-- A duplicate's slot replaced where it stands: the opcodes in use are the same list. -/
theorem set_duplicate (h : c.Wf p) {k : Nat} {u sl : Slot} (hu : c.used[k]? = some u)
    (hop : u.opcode = sl.opcode) (hcb : sl.cb ≠ Cb.NONE) :
    ({ c with handlerTable := c.handlerTable.set k sl } : Context).Wf p := by
  have hused : ({ c with handlerTable := c.handlerTable.set k sl } : Context).used =
      c.used.set k sl := List.take_set
  obtain ⟨hk, hget⟩ := List.getElem?_eq_some_iff.mp hu
  have hopcodes : (c.used.set k sl).map Slot.opcode = c.used.map Slot.opcode := by
    have hk' : k < (c.used.map Slot.opcode).length := by simpa using hk
    have hsame : sl.opcode = (c.used.map Slot.opcode)[k] := by simp [hget, hop]
    rw [List.map_set, hsame, List.set_getElem_self]
  have hcount : k < c.handlerCount := by simp [Context.used] at hk; omega
  exact {
    tableSize := by simpa using h.tableSize
    countInTable := h.countInTable
    opcodesDistinct := by rw [hused, hopcodes]; exact h.opcodesDistinct
    callbacksSet := by
      rw [hused]
      intro x hx
      obtain hx | rfl := List.mem_or_eq_of_mem_set hx
      · exact h.callbacksSet x hx
      · exact hcb
    freeSlotsZero := by
      rw [List.drop_set_of_lt hcount]
      exact h.freeSlotsZero
    counterInWidth := h.counterInWidth }

/-- A new opcode in the next free slot. -/
theorem set_next (h : c.Wf p) {sl : Slot} (hnew : ∀ u ∈ c.used, u.opcode ≠ sl.opcode)
    (hroom : c.handlerCount < p.hcap) (hcb : sl.cb ≠ Cb.NONE) :
    ({ c with handlerTable := c.handlerTable.set c.handlerCount sl
              handlerCount := c.handlerCount + 1 } : Context).Wf p := by
  have hlt : c.handlerCount < c.handlerTable.length := h.tableSize ▸ hroom
  have hused : ({ c with handlerTable := c.handlerTable.set c.handlerCount sl
                         handlerCount := c.handlerCount + 1 } : Context).used =
      c.used ++ [sl] := by
    simp [Context.used, List.take_add_one, hlt, List.take_set_of_le]
  exact {
    tableSize := by simpa using h.tableSize
    countInTable := hroom
    opcodesDistinct := by
      rw [hused, List.map_append, List.map_singleton, ← List.concat_eq_append]
      refine List.Nodup.concat ?_ h.opcodesDistinct
      simpa using hnew
    callbacksSet := by
      rw [hused]
      intro x hx
      obtain hx | hx := List.mem_append.mp hx
      · exact h.callbacksSet x hx
      · exact List.mem_singleton.mp hx ▸ hcb
    freeSlotsZero := by
      intro x hx
      rw [List.drop_set_of_lt (Nat.lt_succ_self _)] at hx
      exact h.freeSlotsZero x (List.drop_subset_drop_left _ (Nat.le_succ _) hx)
    counterInWidth := h.counterInWidth }

theorem of_registered (h : c.Wf p) {sl : Slot} (hcb : sl.cb ≠ Cb.NONE)
    (hreg : c.registered p sl = some c') : c'.Wf p := by
  obtain ⟨k, u, hu, hop, rfl⟩ | ⟨hnew, hroom, rfl⟩ := registered_some hreg
  · exact h.set_duplicate hu hop hcb
  · exact h.set_next hnew hroom hcb

/-- Every move of a Context keeps it well formed. -/
theorem of_move {i : Instr} {s : State} (h : c.Wf s.params) (hmove : ContextMove i s c c') :
    c'.Wf s.params := by
  cases hmove with
  | registered _ hcb hreg => exact h.of_registered hcb hreg
  | decodeFailed _ hfail => exact h.of_recordFailure hfail
  | kept | onMessageSet | onRequestSet | decoded | staged =>
    exact h.of_sameTable rfl rfl h.counterInWidth

end Context.Wf

namespace State.Inv

variable {s t : State}

theorem setInputs (h : s.Inv) (is : List Input) : (s.setInputs is).Inv :=
  ⟨h.paramsLegal, h.answeredOnce, h.ctxWf⟩

/-- Of the Context: CTX_INIT makes a well-formed one, and every other instruction moves the one
there is. -/
theorem ctxWf_of_exec {i : Instr} (hs : s.Inv) (h : exec i s = .next t) {c' : Context}
    (htc : t.ctx = some c') : c'.Wf s.params := by
  by_cases hinit : initsContext i
  · obtain ⟨r, a, rfl⟩ := hinit
    cases h
    cases htc
    exact freshContext_wf s.params r a
  · cases hc : s.ctx with
    | none =>
      rw [exec_ctx_none hinit h hc] at htc
      cases htc
    | some c =>
      obtain ⟨c₁, htc₁, hmove⟩ := exec_ctx_some hinit h hc
      cases htc.symm.trans htc₁
      exact (hs.ctxWf c hc).of_move hmove

theorem of_exec {i : Instr} (hs : s.Inv) (h : exec i s = .next t) : t.Inv := by
  obtain ⟨hparams, -, hcount, ⟨r, hresponse⟩, -⟩ := exec_answeredOnce h
  refine ⟨hparams ▸ hs.paramsLegal, ?_, fun c' htc => hparams ▸ hs.ctxWf_of_exec h htc⟩
  simp [hresponse, hcount, hs.answeredOnce]

end State.Inv

/-- Settles O59: an idle step keeps the state, and any other runs an instruction. -/
theorem everyStepKeepsTheInvariant : Obligations.EveryStepKeepsTheInvariant := by
  intro s t hs h
  have hp := hs.paramsLegal
  cases hin : s.inputs with
  | nil =>
    rw [step_idle hp hin] at h
    cases h
    exact hs
  | cons input rest =>
    cases hd : decode input with
    | error e =>
      rw [step_rejected hp hin hd] at h
      cases h
    | ok i =>
      rw [step_decoded hp hin hd] at h
      exact (hs.setInputs rest).of_exec h

/-- Settles O58: there is no Context after reset. -/
theorem invariantHoldsAtReset : Obligations.InvariantHoldsAtReset where
  paramsLegal := by decide
  answeredOnce := rfl
  ctxWf := nofun

end Sys2Proof.Machine
end

section
/-! PROOFS for 30_encoding.md, the ports: each operand is read back from what the encoder writes
for it, so a command decodes to its instruction (R82); the nine frame classes cover every opcode
byte and each gives it back (R74, R89); a code outside the table is refused (R84). -/

namespace Sys2Proof.Machine

open Sys2Proof

/-! ## Operands on the command port -/

/-- The parser `get` reads the operand `a` off `bytes` and leaves whatever follows them. -/
def Reads {α : Type} (get : List Byte → Option (α × List Byte)) (bytes : List Byte) (a : α) :
    Prop :=
  ∀ rest, get (bytes ++ rest) = some (a, rest)

namespace Reads

variable {α : Type} {get : List Byte → Option (α × List Byte)} {bytes : List Byte} {a : α}

theorem before (h : Reads get bytes a) (rest : List Byte) : get (bytes ++ rest) = some (a, rest) :=
  h rest

theorem last (h : Reads get bytes a) : get bytes = some (a, []) := by simpa using h []

end Reads

@[simp] theorem getByte_cons (b : Byte) (rest : List Byte) : getByte (b :: rest) = some (b, rest) :=
  rfl

theorem getBytes_reads {n : Nat} {bytes : List Byte} (h : bytes.length = n) :
    Reads (getBytes n) bytes bytes := by
  intro rest
  simp [getBytes, ← h]

theorem getLe_reads {w v : Nat} (h : v < 256 ^ w) : Reads (getLe w) (leBytes w v) v := by
  intro rest
  simp [getLe, (getBytes_reads (leBytes_length w v)).before, leValue_leBytes, Nat.mod_eq_of_lt h]

theorem getLe_reads_toNat {k : Nat} (w : Nat) (v : BitVec k) (hk : k = 8 * w) :
    Reads (getLe w) (leBytes w v.toNat) v.toNat :=
  getLe_reads (by simpa [hk, Nat.pow_mul] using v.isLt)

theorem getNat_reads {n : Nat} (h : portNat n = true) : Reads getNat (putNat n) n :=
  getLe_reads (of_decide_eq_true h)

theorem getSeq_reads {bytes : List Byte} (h : portSeq bytes = true) :
    Reads getSeq (putSeq bytes) bytes := by
  intro rest
  simp [getSeq, putSeq, (getNat_reads h).before, (getBytes_reads rfl).before]

theorem getBit_reads (b : Bool) : Reads getBit (putBit b) b := by
  intro rest
  cases b <;> rfl

theorem getMessage_reads {m : Message} (h : m.portable = true) :
    Reads getMessage (putMessage m) m := by
  intro rest
  simp [getMessage, putMessage, (getSeq_reads h).before]

@[simp] theorem roleOfBit_roleBit (r : Role) : roleOfBit (roleBit r) = r := by cases r <;> rfl

/-! ## Commands -/

theorem decode_command {code : Byte} {operands : List Byte} {i : Instr}
    (h : parseCommand code.toNat operands = some (some i)) :
    decode (command code operands) = .ok i := by
  simp [decode, command, decodeCommand, h]

/-- The command codes of R82's table. -/
def commandCodes : List Byte :=
  [0x01, 0x10, 0x11, 0x12, 0x13, 0x14, 0x19, 0x1A, 0x1C, 0x20, 0x21, 0x30, 0x31, 0x32, 0x33, 0x34,
    0x38, 0x39, 0x3A, 0x40]

/-- A code with an arm in the parser is in the table. -/
theorem mem_commandCodes_of_parseCommand {code : Nat} {operands : List Byte}
    (h : parseCommand code operands ≠ none) : code ∈ commandCodes.map BitVec.toNat := by
  unfold parseCommand at h
  split at h
  case h_21 => exact absurd rfl h
  all_goals decide

theorem decode_unassigned {code : Byte} (h : code ∉ commandCodes) (operands : List Byte) :
    decode (.command (code :: operands)) = .error (.unassignedCommand code) := by
  have hnone : parseCommand code.toNat operands = none := by
    by_contra hsome
    obtain ⟨known, hmem, heq⟩ := List.mem_map.mp (mem_commandCodes_of_parseCommand hsome)
    exact h (BitVec.eq_of_toNat_eq heq ▸ hmem)
  simp [decode, decodeCommand, hnone]

/-- Settles O55: such an input decodes to nothing, and the step refuses it by its code. -/
theorem unassignedCodesAreRefused : Obligations.UnassignedCodesAreRefused :=
  fun _ _ beats _ hp hin hcode => step_rejected hp hin (decode_unassigned hcode beats)

/-! ## Frame classes -/

/-- A class of R89 that leaves the low `k` bits of the opcode open: its mask is the other bits,
and its match lies within the mask. -/
structure FrameClass (k : Nat) (mask fixed : Byte) : Prop where
  openBits : k ≤ 8
  mask_eq : mask = BitVec.allOnes 8 <<< k
  fixed_within : fixed &&& mask = fixed

theorem classOpcode_getLsbD {k : Nat} (fixed : Byte) (low : BitVec k) {i : Nat} (hi : i < 8) :
    (classOpcode fixed low).getLsbD i = (fixed.getLsbD i || low.getLsbD i) := by
  simp [classOpcode, hi]

namespace FrameClass

variable {k : Nat} {mask fixed : Byte}

theorem mask_getLsbD (hclass : FrameClass k mask fixed) {i : Nat} (hi : i < 8) :
    mask.getLsbD i = decide (k ≤ i) := by
  have hshifted : i - k < 8 := (Nat.sub_le i k).trans_lt hi
  rw [hclass.mask_eq, BitVec.getLsbD_shiftLeft, BitVec.getLsbD_allOnes]
  simp only [hi, hshifted, decide_true, Bool.true_and, Bool.and_true, ← decide_not, Nat.not_lt]

theorem fixed_getLsbD_low (hclass : FrameClass k mask fixed) {i : Nat} (hi : i < k) :
    fixed.getLsbD i = false := by
  rw [← hclass.fixed_within, BitVec.getLsbD_and, hclass.mask_getLsbD (hi.trans_le hclass.openBits)]
  simp [hi]

/-- An opcode of the class passes its test. -/
theorem classOpcode_and_mask (hclass : FrameClass k mask fixed) (low : BitVec k) :
    classOpcode fixed low &&& mask = fixed := by
  apply BitVec.eq_of_getLsbD_eq
  intro i hi
  rw [BitVec.getLsbD_and, classOpcode_getLsbD _ _ hi, hclass.mask_getLsbD hi]
  by_cases hik : k ≤ i
  · simp [hik]
  · simp [hik, hclass.fixed_getLsbD_low (Nat.not_le.mp hik)]

/-- The open bits of an opcode of the class are read back. -/
theorem setWidth_classOpcode (hclass : FrameClass k mask fixed) (low : BitVec k) :
    (classOpcode fixed low).setWidth k = low := by
  apply BitVec.eq_of_getLsbD_eq
  intro i hi
  rw [BitVec.getLsbD_setWidth, classOpcode_getLsbD _ _ (hi.trans_le hclass.openBits),
    hclass.fixed_getLsbD_low hi]
  simp [hi]

/-- An opcode that passes the test is its class's match and its own open bits. -/
theorem classOpcode_setWidth (hclass : FrameClass k mask fixed) {o : Byte}
    (ho : o &&& mask = fixed) : classOpcode fixed (o.setWidth k) = o := by
  apply BitVec.eq_of_getLsbD_eq
  intro i hi
  rw [classOpcode_getLsbD _ _ hi, ← ho, BitVec.getLsbD_and, hclass.mask_getLsbD hi,
    BitVec.getLsbD_setWidth]
  by_cases hik : k ≤ i
  · simp [hik]
  · simp [hik, Nat.not_le.mp hik]

theorem exists_low (hclass : FrameClass k mask fixed) {o : Byte} (ho : o &&& mask = fixed) :
    ∃ low : BitVec k, o = classOpcode fixed low := ⟨_, (hclass.classOpcode_setWidth ho).symm⟩

theorem general : FrameClass 7 0x80#8 0x00#8 := ⟨by decide, rfl, rfl⟩
theorem unclassified80BF : FrameClass 6 0xC0#8 0x80#8 := ⟨by decide, rfl, rfl⟩
theorem unclassifiedC0DF : FrameClass 5 0xE0#8 0xC0#8 := ⟨by decide, rfl, rfl⟩
theorem unclassifiedE0EF : FrameClass 4 0xF0#8 0xE0#8 := ⟨by decide, rfl, rfl⟩
theorem unclassifiedF0F7 : FrameClass 3 0xF8#8 0xF0#8 := ⟨by decide, rfl, rfl⟩
theorem unclassifiedF8FB : FrameClass 2 0xFC#8 0xF8#8 := ⟨by decide, rfl, rfl⟩
theorem unclassifiedFCFD : FrameClass 1 0xFE#8 0xFC#8 := ⟨by decide, rfl, rfl⟩

end FrameClass

/-- Every opcode passes the test of one of the nine classes. -/
theorem opcode_class_cases (o : Byte) :
    o &&& 0x80#8 = 0x00#8 ∨ o &&& 0xC0#8 = 0x80#8 ∨ o &&& 0xE0#8 = 0xC0#8 ∨
      o &&& 0xF0#8 = 0xE0#8 ∨ o &&& 0xF8#8 = 0xF0#8 ∨ o &&& 0xFC#8 = 0xF8#8 ∨
      o &&& 0xFE#8 = 0xFC#8 ∨ o = 0xFE#8 ∨ o = 0xFF#8 := by
  revert o
  decide

/-- An opcode that passes the test of its class fails the tests before it, which are of other
matches under coarser masks. -/
theorem and_ne_of_coarser {o mask fixed mask' fixed' : Byte} (ho : o &&& mask = fixed)
    (hmask : mask &&& mask' = mask') (hfixed : fixed &&& mask' ≠ fixed') :
    o &&& mask' ≠ fixed' := by
  rwa [← hmask, ← BitVec.and_assoc, ho]

section FrameOf

variable (t l : Byte) (rest : List Byte)

theorem frameOf_general (low : BitVec 7) :
    frameOf t (classOpcode 0x00#8 low) l rest = .frameGeneral t low l rest := by
  have ho := FrameClass.general.classOpcode_and_mask low
  simp [frameOf, ho, FrameClass.general.setWidth_classOpcode]

theorem frameOf_unclassified80BF (low : BitVec 6) :
    frameOf t (classOpcode 0x80#8 low) l rest = .frameUnclassified80BF t low l rest := by
  have ho := FrameClass.unclassified80BF.classOpcode_and_mask low
  simp [frameOf, ho, and_ne_of_coarser ho, FrameClass.unclassified80BF.setWidth_classOpcode]

theorem frameOf_unclassifiedC0DF (low : BitVec 5) :
    frameOf t (classOpcode 0xC0#8 low) l rest = .frameUnclassifiedC0DF t low l rest := by
  have ho := FrameClass.unclassifiedC0DF.classOpcode_and_mask low
  simp [frameOf, ho, and_ne_of_coarser ho, FrameClass.unclassifiedC0DF.setWidth_classOpcode]

theorem frameOf_unclassifiedE0EF (low : BitVec 4) :
    frameOf t (classOpcode 0xE0#8 low) l rest = .frameUnclassifiedE0EF t low l rest := by
  have ho := FrameClass.unclassifiedE0EF.classOpcode_and_mask low
  simp [frameOf, ho, and_ne_of_coarser ho, FrameClass.unclassifiedE0EF.setWidth_classOpcode]

theorem frameOf_unclassifiedF0F7 (low : BitVec 3) :
    frameOf t (classOpcode 0xF0#8 low) l rest = .frameUnclassifiedF0F7 t low l rest := by
  have ho := FrameClass.unclassifiedF0F7.classOpcode_and_mask low
  simp [frameOf, ho, and_ne_of_coarser ho, FrameClass.unclassifiedF0F7.setWidth_classOpcode]

theorem frameOf_unclassifiedF8FB (low : BitVec 2) :
    frameOf t (classOpcode 0xF8#8 low) l rest = .frameUnclassifiedF8FB t low l rest := by
  have ho := FrameClass.unclassifiedF8FB.classOpcode_and_mask low
  simp [frameOf, ho, and_ne_of_coarser ho, FrameClass.unclassifiedF8FB.setWidth_classOpcode]

theorem frameOf_unclassifiedFCFD (low : BitVec 1) :
    frameOf t (classOpcode 0xFC#8 low) l rest = .frameUnclassifiedFCFD t low l rest := by
  have ho := FrameClass.unclassifiedFCFD.classOpcode_and_mask low
  simp [frameOf, ho, and_ne_of_coarser ho, FrameClass.unclassifiedFCFD.setWidth_classOpcode]

end FrameOf

/-- Settles O53, by the class of the opcode: its match and its open bits are the opcode again. -/
theorem arrivedFrameEncodesBack : Obligations.ArrivedFrameEncodesBack := by
  intro t o l rest
  obtain ho | ho | ho | ho | ho | ho | ho | rfl | rfl := opcode_class_cases o
  · obtain ⟨low, rfl⟩ := FrameClass.general.exists_low ho
    exact congrArg encode (frameOf_general t l rest low)
  · obtain ⟨low, rfl⟩ := FrameClass.unclassified80BF.exists_low ho
    exact congrArg encode (frameOf_unclassified80BF t l rest low)
  · obtain ⟨low, rfl⟩ := FrameClass.unclassifiedC0DF.exists_low ho
    exact congrArg encode (frameOf_unclassifiedC0DF t l rest low)
  · obtain ⟨low, rfl⟩ := FrameClass.unclassifiedE0EF.exists_low ho
    exact congrArg encode (frameOf_unclassifiedE0EF t l rest low)
  · obtain ⟨low, rfl⟩ := FrameClass.unclassifiedF0F7.exists_low ho
    exact congrArg encode (frameOf_unclassifiedF0F7 t l rest low)
  · obtain ⟨low, rfl⟩ := FrameClass.unclassifiedF8FB.exists_low ho
    exact congrArg encode (frameOf_unclassifiedF8FB t l rest low)
  · obtain ⟨low, rfl⟩ := FrameClass.unclassifiedFCFD.exists_low ho
    exact congrArg encode (frameOf_unclassifiedFCFD t l rest low)
  · rfl
  · rfl

/-! ## Decode of encode -/

/-- Settles O52: a command by its operands in order, a frame by the class of its opcode. -/
theorem decodeOfEncodeIsTheInstruction : Obligations.DecodeOfEncodeIsTheInstruction := by
  intro i h
  cases i
  case crc8 bytes =>
    exact decode_command (by simp [parseCommand, (getSeq_reads h).last])
  case msgInit | ctxRead | request => rfl
  case appendU8 m v =>
    exact decode_command
      (by simp [parseCommand, (getMessage_reads h).before, (getLe_reads_toNat 1 v rfl).last])
  case appendU16 m v =>
    exact decode_command
      (by simp [parseCommand, (getMessage_reads h).before, (getLe_reads_toNat 2 v rfl).last])
  case appendU24 m v =>
    exact decode_command
      (by simp [parseCommand, (getMessage_reads h).before, (getLe_reads_toNat 3 v rfl).last])
  case appendU32 m v =>
    exact decode_command
      (by simp [parseCommand, (getMessage_reads h).before, (getLe_reads_toNat 4 v rfl).last])
  case readU8 | readU16 | readU32 =>
    exact decode_command (by simp [parseCommand, (getSeq_reads h).before])
  case encode m cap =>
    obtain ⟨hm, hcap⟩ := Bool.and_eq_true_iff.mp h
    exact decode_command
      (by simp [parseCommand, (getMessage_reads hm).before, (getNat_reads hcap).last])
  case decode bytes n useCtx =>
    obtain ⟨hbytes, hn⟩ := Bool.and_eq_true_iff.mp h
    exact decode_command
      (by simp [parseCommand, (getSeq_reads hbytes).before, (getNat_reads hn).before,
        (getBit_reads useCtx).last])
  case ctxInit role address =>
    exact decode_command (by simp [parseCommand, (getBit_reads _).before])
  case register opcode cb ud =>
    obtain ⟨hcb, hud⟩ := Bool.and_eq_true_iff.mp h
    exact decode_command
      (by simp [parseCommand, (getNat_reads hcb).before, (getNat_reads hud).last])
  case setOnMessage | setOnRequest =>
    exact decode_command (by simp [parseCommand, (getNat_reads h).last])
  case receive bytes n =>
    obtain ⟨hbytes, hn⟩ := Bool.and_eq_true_iff.mp h
    exact decode_command
      (by simp [parseCommand, (getSeq_reads hbytes).before, (getNat_reads hn).last])
  case send dest m =>
    exact decode_command (by simp [parseCommand, (getMessage_reads h).last])
  case scan start stop strict cap timeout =>
    obtain ⟨hcap, htimeout⟩ := Bool.and_eq_true_iff.mp h
    exact decode_command
      (by simp [parseCommand, (getBit_reads strict).before, (getNat_reads hcap).before,
        (getNat_reads htimeout).last])
  case frameGeneral t low l rest =>
    exact congrArg Except.ok (frameOf_general t l rest low)
  case frameUnclassified80BF t low l rest =>
    exact congrArg Except.ok (frameOf_unclassified80BF t l rest low)
  case frameUnclassifiedC0DF t low l rest =>
    exact congrArg Except.ok (frameOf_unclassifiedC0DF t l rest low)
  case frameUnclassifiedE0EF t low l rest =>
    exact congrArg Except.ok (frameOf_unclassifiedE0EF t l rest low)
  case frameUnclassifiedF0F7 t low l rest =>
    exact congrArg Except.ok (frameOf_unclassifiedF0F7 t l rest low)
  case frameUnclassifiedF8FB t low l rest =>
    exact congrArg Except.ok (frameOf_unclassifiedF8FB t l rest low)
  case frameUnclassifiedFCFD t low l rest =>
    exact congrArg Except.ok (frameOf_unclassifiedFCFD t l rest low)
  case frameSetReply | frameReservedFF => rfl

end Sys2Proof.Machine
end

section
/-! PROOFS for 30_encoding.md, the messages: the numbers of the endings (R83), the SET_REPLY
message from the host's sequence to the peer's next reply (R75, R87), and QUERY (R87). First the
operations it is made of: an encode and a SEND of a Message that fits, a decode of a legal frame,
a reply that a callback fills. -/

namespace Sys2Proof.Machine

open Sys2Proof

/-- Settles O49, by the definitions of the two numbers. -/
theorem statusNumbersAreTheTables : Obligations.StatusNumbersAreTheTables :=
  ⟨rfl, rfl, rfl, rfl, rfl, rfl, rfl, rfl, rfl, rfl, rfl⟩

/-- Settles O54, by running the decoder. -/
theorem writtenOutInputsDecode : Obligations.WrittenOutInputsDecode :=
  ⟨rfl, rfl, rfl, rfl, rfl, rfl, rfl, rfl⟩

/-! ## Frames of Messages that fit -/

theorem four_add_maxPayload {p : Params} (hp : p.legal = true) : 4 + p.maxPayload = p.frameMax := by
  simp only [Params.legal, Bool.and_eq_true, decide_eq_true_eq] at hp
  simp only [Params.maxPayload]
  omega

/-- A Message that fits is encoded to its frame where the buffer has room (42_codec.md R131). -/
theorem encodeFrame_fits {p : Params} (op : Nat) {m : Message} {cap : Nat}
    (hm : m.dataLen.toNat ≤ p.maxPayload) (hcap : 4 + m.dataLen.toNat ≤ cap) :
    encodeFrame p m (payload op m) cap = .ok (frameBytes op m) := by
  obtain ⟨hover, -⟩ | ⟨-, hsmall, -⟩ | ⟨-, -, hframe⟩ := encodeFrame_cases p m (payload op m) cap
  · omega
  · omega
  · simpa [frameBytes, crc8_eq_crcBits] using hframe

/-- SEND of a Message that fits writes its frame once and reports what the transport answers
(43_dispatch.md R166). -/
theorem execSend_fits (s : State) (dest : Byte) (m : Message) {c : Context}
    (hp : s.params.legal = true) (hc : s.ctx = some c) (hrole : c.role = .controller)
    (hm : m.dataLen.toNat ≤ s.params.maxPayload) {accepted : Bool} {left : Answers}
    (hwrite : s.answers.popWrite (Config.freeWrite s.opCount) = (accepted, left)) :
    execSend dest m s =
      .next (((s.setAnswers left).addCalls [.write dest (frameBytes s.opCount m)]).answered
        (if accepted then .ok else .writeFailed) .none) := by
  have hframe := encodeFrame_fits s.opCount hm
    (Nat.add_le_add_left hm 4 |>.trans (four_add_maxPayload hp).le)
  cases accepted <;> simp [execSend, withRole_some hc hrole, hframe, hwrite]

/-- The Message of a legal frame. -/
def frameMessage (t o l : Byte) (data : List Byte) : Message :=
  { typeId := t, opcode := o, dataLen := l, data := data, crc8 := crcBits (t :: o :: l :: data) }

/-- The codec accepts a legal frame, whatever follows it (42_codec.md R137, R139). -/
theorem decodeFrame_of_isFrame {p : Params} {present : List Byte} {t o l : Byte} {data : List Byte}
    (h : IsFrame p present t o l data) : decodeFrame p present = .ok (frameMessage t o l data) := by
  obtain ⟨hlen, hmax, extra, rfl⟩ := h
  obtain ⟨b, rest, hrest⟩ :
      ∃ b rest, data ++ crcBits (t :: o :: l :: data) :: extra = b :: rest := by
    cases data <;> simp
  have htake : (b :: rest).take l.toNat = data := by rw [← hrest, ← hlen]; simp
  have hcrc : (b :: rest).getD l.toNat 0 = crcBits (t :: o :: l :: data) := by
    rw [← hrest, ← hlen]
    simp
  have hwhole : ¬ rest.length < l.toNat := by
    have := congrArg List.length hrest
    simp at this
    omega
  rw [hrest, decodeFrame_cons, htake, hcrc, crc8_eq_crcBits]
  simp [Nat.not_lt.mpr hmax, hwhole, frameMessage]

theorem isFrame_frameBytes {p : Params} {op : Nat} {m : Message}
    (hm : m.dataLen.toNat ≤ p.maxPayload) :
    IsFrame p (frameBytes op m) m.typeId m.opcode m.dataLen (payload op m) :=
  ⟨payload_length op m, hm, [], by simp [frameBytes]⟩

theorem execDecode_of_isFrame {s : State} {c : Context} {bytes : List Byte} {t o l : Byte}
    {data : List Byte} (hc : s.ctx = some c) (h : IsFrame s.params bytes t o l data) :
    execDecode bytes bytes.length true s =
      .next ((s.setCtx (recordSuccess c)).answered .ok (.message (frameMessage t o l data))) := by
  simp [execDecode, withContext_some hc, decodeAgainst, decodeFrame_of_isFrame h]

theorem receivePath_of_isFrame {s : State} {c : Context} {present : List Byte} {t o l : Byte}
    {data : List Byte} (hc : s.ctx = some c) (hrole : c.role = .peripheral)
    (h : IsFrame s.params present t o l data) :
    receivePath s present =
      dispatchMessage (s.setCtx (recordSuccess c)) (recordSuccess c) (frameMessage t o l data) := by
  simp [receivePath, withRole_some hc hrole, decodeFrame_of_isFrame h]

/-- A SET_REPLY Message with a payload stages its first byte and calls nobody (R157). -/
theorem dispatchMessage_setReply {s : State} {c : Context} {m : Message} (hop : m.opcode = 0xFE#8)
    (hlen : 1 ≤ m.dataLen.toNat) :
    dispatchMessage s c m =
      .next ((s.setCtx { c with requestedOpcode := m.data.headD 0 }).answered .ok .none) := by
  simp [dispatchMessage, hop, hlen, respond_eq]

/-! ## The reply -/

theorem replyWith_ends (s : State) (op : Nat) (m : Message) :
    ∃ r, replyWith s op m = .next (s.answered .ok r) := by
  unfold replyWith
  split <;> exact ⟨_, rfl⟩

/-- REQUEST with `on_request` set calls it once, with the staged opcode (43_dispatch.md R163,
R164). -/
theorem execRequest_calls (s : State) {c : Context} (hc : s.ctx = some c)
    (hrole : c.role = .peripheral) (hset : c.onRequest ≠ Cb.NONE) (hret : s.CallbackReturns) :
    ∃ m₀ left r, execRequest s =
      .next (((s.afterCallback (.onRequest c.onRequest c.requestedOpcode m₀)).setAnswers
        left).answered .ok r) := by
  unfold execRequest
  rw [withRole_some hc hrole]
  simp only [if_pos hset]
  rw [withCallback_returns hret]
  obtain ⟨r, hr⟩ := replyWith_ends _ _ _
  exact ⟨_, _, r, hr⟩

/-! ## The SET_REPLY message -/

/-- The SET_REPLY message as MSG_SET_REPLY builds it in operation `n` (R75). -/
def setReplyMessage (n : Nat) (t op : Byte) : Message :=
  { typeId := t, opcode := 0xFE, dataLen := 1, data := [op], crc8 := Config.freeCrc n }

theorem lastMessage_answered_ok (s : State) (m : Message) :
    (s.answered .ok (.message m)).lastMessage = some m := by
  simp [State.lastMessage, State.lastResponse]

theorem thenMessage_answered (s : State) (m : Message) (k : Message → State → Result3) :
    thenMessage (.next (s.answered .ok (.message m))) k = k m (s.answered .ok (.message m)) := by
  simp [thenMessage, lastMessage_answered_ok]

theorem thenOk_answered (s : State) (r : Result) (k : State → Result3) :
    thenOk (.next (s.answered .ok r)) k = k (s.answered .ok r) := by
  simp [thenOk, State.lastResponse]

/-- The state after MSG_SET_REPLY. -/
def State.setReplyBuilt (s : State) (t op : Byte) : State :=
  (s.answered .ok (.message (emptyMessage s.opCount t 0xFE#8))).answered .ok
    (.message (setReplyMessage s.opCount t op))

theorem one_le_maxPayload {p : Params} (h : 5 ≤ p.frameMax) : 1 ≤ p.maxPayload :=
  Nat.sub_le_sub_right h 4

theorem pseudoMsgSetReply_eq {s : State} (h5 : 5 ≤ s.params.frameMax) (t op : Byte) :
    pseudoMsgSetReply t op s = .next (s.setReplyBuilt t op) := by
  have hfits := one_le_maxPayload h5
  unfold pseudoMsgSetReply execMsgInit
  rw [respond_eq, thenMessage_answered]
  obtain ⟨hfull, -⟩ | ⟨-, hend⟩ := appendTo_cases
    (s.answered .ok (.message (emptyMessage s.opCount t 0xFE#8)))
    (emptyMessage s.opCount t 0xFE#8) 1 op.toNat
  · simp [emptyMessage] at hfull
    omega
  · exact hend.trans (by
      simp [State.setReplyBuilt, setReplyMessage, emptyMessage, payload, window, leBytes])

/-- Settles O50: both operations of MSG_SET_REPLY end OK, the append by `one_le_maxPayload`. -/
theorem msgSetReplyBuildsTheMessage : Obligations.MsgSetReplyBuildsTheMessage := by
  intro s t op _ h5
  exact ⟨_, _, pseudoMsgSetReply_eq h5 t op, rfl, rfl, rfl, lastMessage_answered_ok _ _,
    rfl, rfl, rfl, rfl⟩

/-- The frame of a SET_REPLY message, whatever its `crc8`. -/
theorem frameBytes_setReply {n : Nat} {m : Message} {op : Byte} (hop : m.opcode = 0xFE)
    (hlen : m.dataLen = 1) (hdata : m.data = [op]) :
    frameBytes n m = [m.typeId, 0xFE, 1, op, crcBits [m.typeId, 0xFE, 1, op]] := by
  simp [frameBytes, payload, window, hop, hlen, hdata]

theorem setReply_fits {p : Params} (h5 : 5 ≤ p.frameMax) {m : Message} (hlen : m.dataLen = 1) :
    m.dataLen.toNat ≤ p.maxPayload := hlen ▸ one_le_maxPayload h5

/-! ## QUERY -/

theorem popWrite_cons {a : Answers} {accepted free : Bool} {writes : List Bool}
    (h : a.writes = accepted :: writes) :
    a.popWrite free = (accepted, { a with writes := writes }) := by
  simp [Answers.popWrite, h]

theorem popRead_cons {a : Answers} {bytes free : List Byte} {reads : List (List Byte)}
    (h : a.reads = bytes :: reads) : a.popRead free = (bytes, { a with reads := reads }) := by
  simp [Answers.popRead, h]

/-- The host's read of a legal frame answers its Message and counts a good decode (R87,
42_codec.md R136). -/
theorem hostReadAndDecode_of_isFrame {s : State} {c : Context} {dest : Byte} {timeout : Timeout}
    {bytes : List Byte} {reads : List (List Byte)} {t o l : Byte} {data : List Byte}
    (hc : s.ctx = some c) (hreads : s.answers.reads = bytes :: reads)
    (hlen : bytes.length ≤ s.params.frameMax) (h : IsFrame s.params bytes t o l data) :
    hostReadAndDecode dest timeout s =
      .next ((((s.setAnswers { s.answers with reads := reads }).addCalls
        [.read dest s.params.frameMax timeout]).setCtx (recordSuccess c)).answered .ok
          (.message (frameMessage t o l data))) := by
  simp only [hostReadAndDecode, popRead_cons hreads, if_neg (Nat.not_lt.mpr hlen), gt_iff_lt]
  exact execDecode_of_isFrame hc h

/-- QUERY on a controller whose transport accepts the write is the host's read, in a state in
which the SET_REPLY frame has been written. -/
theorem pseudoQuery_accepted {s : State} {c : Context} {writes : List Bool}
    (hp : s.params.legal = true) (h5 : 5 ≤ s.params.frameMax) (hc : s.ctx = some c)
    (hrole : c.role = .controller) (hwrites : s.answers.writes = true :: writes)
    (dest t op : Byte) (timeout : Timeout) :
    pseudoQuery dest t op timeout s =
      hostReadAndDecode dest timeout
        ((((s.setReplyBuilt t op).setAnswers { s.answers with writes := writes }).addCalls
          [.write dest [t, 0xFE, 1, op, crcBits [t, 0xFE, 1, op]]]).answered .ok .none) := by
  have hsend := execSend_fits (s.setReplyBuilt t op) dest (setReplyMessage s.opCount t op) hp hc
    hrole (setReply_fits h5 rfl) (popWrite_cons hwrites)
  rw [frameBytes_setReply rfl rfl rfl] at hsend
  unfold pseudoQuery
  rw [pseudoMsgSetReply_eq h5, State.setReplyBuilt, thenMessage_answered]
  exact (congrArg (thenOk · _) hsend).trans (thenOk_answered _ _ _)

/-- Settles O51: the message is built, its frame is written and accepted, and the frame read is
decoded. -/
theorem queryStagesReadsAndDecodes : Obligations.QueryStagesReadsAndDecodes := by
  intro s c dest t op timeout bytes writes reads t' o' l' data hp h5 hc hrole hwrites hreads hlen
    hframe
  have hquery := (pseudoQuery_accepted hp h5 hc hrole hwrites dest t op timeout).trans
    (hostReadAndDecode_of_isFrame hc hreads hlen hframe)
  exact ⟨_, hquery, rfl, List.append_assoc _ _ _, lastMessage_answered_ok _ _⟩

/-! ## From the controller's SEND to the peripheral's next reply -/

/-- The state after the arrival of a SET_REPLY frame with payload `op`. -/
def State.staged (s : State) (c : Context) (op : Byte) : State :=
  ((s.setCtx (recordSuccess c)).setCtx
    { recordSuccess c with requestedOpcode := op }).answered .ok .none

/-- The arrival of a SET_REPLY frame with one payload byte stages it and calls nobody (R157). -/
theorem exec_arrived_setReply {s : State} {c : Context} (t op : Byte) (hc : s.ctx = some c)
    (hrole : c.role = .peripheral) (h5 : 5 ≤ s.params.frameMax) :
    exec (decodeArrived [t, 0xFE, 1, op, crcBits [t, 0xFE, 1, op]]) s =
      .next (s.staged c op) := by
  have hframe : IsFrame s.params [t, 0xFE, 1, op, crcBits [t, 0xFE, 1, op]] t 0xFE 1 [op] :=
    ⟨rfl, one_le_maxPayload h5, [], rfl⟩
  exact (receivePath_of_isFrame hc hrole hframe).trans (dispatchMessage_setReply rfl (le_refl 1))

/-- Settles O37: the frame that SEND writes is the SET_REPLY frame of the message, its arrival
stages the payload byte, and REQUEST asks for what is staged. -/
theorem setReplyReachesTheNextReply : Obligations.SetReplyReachesTheNextReply := by
  intro sc sp cc cp dest t op m hp h5 _ hmax hcc hctrl hcp hperi hset hret _ hop hlen hdata
  have hsend := execSend_fits sc dest m hp hcc hctrl (setReply_fits h5 hlen) rfl
  rw [frameBytes_setReply hop hlen hdata] at hsend
  have harrive := exec_arrived_setReply m.typeId op hcp hperi (h5.trans_eq hmax.symm)
  obtain ⟨m₀, left, r, hrequest⟩ := execRequest_calls (sp.staged cp op) rfl hperi hset hret
  exact ⟨_, _, _, _, m₀, hsend, rfl, harrive, rfl, rfl, hrequest, rfl, rfl⟩

end Sys2Proof.Machine
end

section
/-! PROOFS for 40_crc.md: the engine's forms and its operation (R100 to R107), and the laws of
R108. Each of these is proved for the reference CRC and holds with either table because the tables
compute the reference (`crc8_eq_crcBits`). The laws of R108 come from one shift: it is linear over
exclusive or and only 0 goes to 0, so the register after any bytes is linear in the register and
the bytes before, and one-to-one in the register. -/

namespace Sys2Proof.Machine

open Sys2Proof

/-! ## The engine and its operation -/

/-- Settles O2, by the agreement of each table's step with eight shifts. -/
theorem crcTableFormsEqualBitSerial : Obligations.CrcTableFormsEqualBitSerial := fun s =>
  ⟨crc8_eq_crcBits .nibble s, crc8_eq_crcBits .byte s, fun impl => crc8_eq_crcBits impl s⟩

theorem exec_crc8 (bytes : List Byte) (s : State) :
    exec (.crc8 bytes) s = respond s .ok (.byte (crc8 s.params.crcImpl bytes)) := rfl

/-- Settles O1: the operation answers with the engine's CRC, which is the reference CRC. -/
theorem crc8AnswersReferenceCrc : Obligations.Crc8AnswersReferenceCrc := by
  intro bytes s
  rw [exec_crc8, crc8_eq_crcBits, respond_eq]

@[simp] theorem crcBits_nil : crcBits [] = 0 := rfl

/-- Settles O3, from the reference CRC of no bytes. -/
theorem crcOfNoBytesIsZero : Obligations.CrcOfNoBytesIsZero :=
  ⟨fun impl => (crc8_eq_crcBits impl []).trans crcBits_nil, crc8AnswersReferenceCrc []⟩

/-! ## Zero bytes and the residue -/

theorem crcBits_append_singleton (s : List Byte) (b : Byte) :
    crcBits (s ++ [b]) = crcBitStep (crcBits s) b := List.foldl_append

/-- A byte equal to the register takes it to 0: for a register of 0 this is the zero byte that
changes nothing, for the register after a sequence it is the residue. -/
@[simp] theorem crcBitStep_self (c : Byte) : crcBitStep c c = 0 :=
  congrArg (crcShifts 8) BitVec.xor_self

theorem crcBits_replicate_zero_append (n : Nat) (s : List Byte) :
    crcBits (List.replicate n 0 ++ s) = crcBits s := by
  induction n with
  | zero => rfl
  | succ n ih =>
    rw [List.replicate_succ, List.cons_append, crcBits, List.foldl_cons, crcBitStep_self]
    exact ih

theorem crcBits_replicate_zero (n : Nat) : crcBits (List.replicate n 0) = 0 := by
  simpa using crcBits_replicate_zero_append n []

theorem crcBits_append_crc (s : List Byte) : crcBits (s ++ [crcBits s]) = 0 := by
  rw [crcBits_append_singleton, crcBitStep_self]

/-- Settles O4, clause by clause for the reference CRC. -/
theorem crcZeroBytesAndResidue : Obligations.CrcZeroBytesAndResidue := by
  intro impl n s
  simp only [crc8_eq_crcBits]
  exact ⟨crcBits_replicate_zero n, crcBits_replicate_zero_append n s, crcBits_append_crc s⟩

/-! ## Linearity -/

/-- What one shift adds to the shifted register: the polynomial where a 1 leaves at the top. -/
def crcFeedback (carry : Bool) : Byte := if carry then 0x07#8 else 0

theorem crcFeedback_xor : ∀ p q : Bool, crcFeedback (p ^^ q) = crcFeedback p ^^^ crcFeedback q := by
  decide

theorem crcShift_eq_xor (c : Byte) : crcShift c = (c <<< 1) ^^^ crcFeedback c.msb := by
  cases h : c.msb <;> simp [crcShift, crcFeedback, h]

theorem crcShift_xor (a b : Byte) : crcShift (a ^^^ b) = crcShift a ^^^ crcShift b := by
  simp only [crcShift_eq_xor, BitVec.shiftLeft_xor_distrib, BitVec.msb_xor, crcFeedback_xor]
  ac_rfl

theorem crcShifts_xor (n : Nat) (a b : Byte) :
    crcShifts n (a ^^^ b) = crcShifts n a ^^^ crcShifts n b := by
  induction n generalizing a b with
  | zero => rfl
  | succ n ih => simp only [crcShifts, crcShift_xor, ih]

theorem crcBitStep_xor (c d a b : Byte) :
    crcBitStep (c ^^^ d) (a ^^^ b) = crcBitStep c a ^^^ crcBitStep d b := by
  have hswap : c ^^^ d ^^^ (a ^^^ b) = c ^^^ a ^^^ (d ^^^ b) := by ac_rfl
  simp only [crcBitStep, hswap, crcShifts_xor]

/-- Linearity from any two registers, which the induction needs. -/
theorem foldl_crcBitStep_zipWith_xor {s t : List Byte} (hlen : s.length = t.length) (c d : Byte) :
    (List.zipWith (· ^^^ ·) s t).foldl crcBitStep (c ^^^ d) =
      s.foldl crcBitStep c ^^^ t.foldl crcBitStep d := by
  induction s generalizing t c d with
  | nil => cases List.eq_nil_of_length_eq_zero hlen.symm; rfl
  | cons a s ih =>
    obtain ⟨b, t, rfl⟩ := List.exists_cons_of_length_eq_add_one hlen.symm
    simp only [List.zipWith_cons_cons, List.foldl_cons, crcBitStep_xor]
    exact ih (Nat.succ.inj hlen) _ _

theorem crcBits_zipWith_xor {s t : List Byte} (hlen : s.length = t.length) :
    crcBits (List.zipWith (· ^^^ ·) s t) = crcBits s ^^^ crcBits t :=
  foldl_crcBitStep_zipWith_xor hlen 0 0

/-! ## A changed byte -/

theorem eq_zero_of_crcShift_eq_zero (a : Byte) : crcShift a = 0 → a = 0 := by
  revert a
  decide +kernel

theorem crcShift_injective : Function.Injective crcShift := by
  intro a b h
  have hdiff : crcShift (a ^^^ b) = 0 := by
    rw [crcShift_xor, h]
    exact BitVec.xor_self
  exact BitVec.xor_eq_zero_iff.mp (eq_zero_of_crcShift_eq_zero _ hdiff)

theorem crcShifts_injective (n : Nat) : Function.Injective (crcShifts n) := by
  induction n with
  | zero => exact Function.injective_id
  | succ n ih => exact ih.comp crcShift_injective

theorem crcBitStep_right_injective (c : Byte) : Function.Injective (crcBitStep c) :=
  fun _ _ h => BitVec.xor_right_inj c |>.mp (crcShifts_injective 8 h)

theorem crcBitStep_left_injective (b : Byte) : Function.Injective (crcBitStep · b) :=
  fun _ _ h => BitVec.xor_left_inj b |>.mp (crcShifts_injective 8 h)

theorem foldl_crcBitStep_injective (s : List Byte) : Function.Injective (s.foldl crcBitStep) := by
  induction s with
  | nil => exact Function.injective_id
  | cons b s ih => exact ih.comp (crcBitStep_left_injective b)

/-- Two sequences that differ in one byte have different CRCs. -/
theorem crcBits_set_inj {s : List Byte} {i : Nat} (hi : i < s.length) {a b : Byte} :
    crcBits (s.set i a) = crcBits (s.set i b) ↔ a = b := by
  refine ⟨fun h => ?_, fun h => h ▸ rfl⟩
  simp only [crcBits, List.set_eq_take_append_cons_drop, hi, if_true, List.foldl_append,
    List.foldl_cons] at h
  exact crcBitStep_right_injective _ (foldl_crcBitStep_injective _ h)

theorem one_shiftLeft_ne_zero {k : Nat} (hk : k < 8) : 1#8 <<< k ≠ 0 := by
  revert k
  decide

theorem crcBits_flipBit_ne {s : List Byte} {i k : Nat} (hi : i < s.length) (hk : k < 8) :
    crcBits (flipBit s i k) ≠ crcBits s := by
  intro h
  have hself : s.set i (s.getD i 0) = s := by simp [hi]
  rw [flipBit, ← congrArg crcBits hself, crcBits_set_inj hi] at h
  exact one_shiftLeft_ne_zero hk (by simpa using h)

/-- Settles O5: linearity by the fold over both sequences at once; a flipped bit changes one byte,
and with it the CRC. -/
theorem crcLinearAndDetectsBitFlip : Obligations.CrcLinearAndDetectsBitFlip := by
  simp only [Obligations.CrcLinearAndDetectsBitFlip, crc8_eq_crcBits]
  exact ⟨fun _ _ _ hlen => crcBits_zipWith_xor hlen, fun _ _ _ _ hi hk => crcBits_flipBit_ne hi hk⟩

end Sys2Proof.Machine
end

section
/-! PROOFS for 41_cursor.md: MSG_INIT (R111), the appends (R112 to R116), the reads (R117 to
R120), and what the reads give back after an append (R122); and that no operation of R231 looks at
the Context (R110). An append or a read of `w` bytes is one statement for every `w`; and each
instruction is that statement at its own width. -/

namespace Sys2Proof.Machine

open Sys2Proof

/-! ## MSG_INIT -/

/-- Settles O6: the Message is `emptyMessage`. -/
theorem msgInitAnswersEmptyMessage : Obligations.MsgInitAnswersEmptyMessage :=
  fun t o s => ⟨emptyMessage s.opCount t o, rfl, rfl, rfl, rfl⟩

/-! ## Bytes of a value, value of bytes -/

theorem leBytes_eq_map (w v : Nat) :
    leBytes w v = (List.range w).map fun k => BitVec.ofNat 8 (v >>> (8 * k)) := by
  induction w generalizing v with
  | zero => rfl
  | succ w ih =>
    have hnext : ∀ k, v >>> (8 * (k + 1)) = (v / 256) >>> (8 * k) := fun k => by
      rw [Nat.mul_succ, Nat.add_comm, Nat.shiftRight_add, Nat.shiftRight_eq_div_pow v 8,
        show 2 ^ 8 = 256 from rfl]
    simp [leBytes, ih, List.range_succ_eq_map, hnext]

/-- The bytes of a bit vector are its byte-wide slices (20_memory.md R57). -/
theorem leBytes_toNat {n : Nat} (w : Nat) (v : BitVec n) :
    leBytes w v.toNat = (List.range w).map fun k => v.extractLsb' (8 * k) 8 :=
  leBytes_eq_map w v.toNat

theorem leBytes_one_toNat (v : Byte) : leBytes 1 v.toNat = [v] := by
  simp [leBytes]

theorem ofNat_leValue_singleton (b : Byte) : BitVec.ofNat 8 (leValue [b]) = b := by
  simp [leValue]

/-- The first byte is the least significant one (R57). -/
theorem ofNat_leValue_cons (n : Nat) (b : Byte) (bs : List Byte) :
    BitVec.ofNat (n + 8) (leValue (b :: bs)) = BitVec.ofNat n (leValue bs) ++ b := by
  have hlow : (b.toNat + 256 * leValue bs) % 2 ^ 8 = b.toNat := by omega
  have hhigh : (b.toNat + 256 * leValue bs) / 2 ^ 8 = leValue bs := by omega
  apply BitVec.eq_of_toNat_eq
  rw [BitVec.toNat_append, ← Nat.shiftLeft_add_eq_or_of_lt b.isLt, Nat.shiftLeft_eq,
    BitVec.toNat_ofNat, BitVec.toNat_ofNat, leValue, Nat.pow_add, Nat.mul_comm (2 ^ n),
    Nat.mod_mul, hlow, hhigh, Nat.add_comm, Nat.mul_comm]

theorem ofNat_leValue_two (b₀ b₁ : Byte) : BitVec.ofNat 16 (leValue [b₀, b₁]) = b₁ ++ b₀ := by
  rw [ofNat_leValue_cons 8, ofNat_leValue_singleton]

theorem ofNat_leValue_four (b₀ b₁ b₂ b₃ : Byte) :
    BitVec.ofNat 32 (leValue [b₀, b₁, b₂, b₃]) = b₃ ++ b₂ ++ b₁ ++ b₀ := by
  rw [ofNat_leValue_cons 24, ofNat_leValue_cons 16, ofNat_leValue_two]

/-! ## Appends -/

/-- An append of any width (R116): the test, then the bytes and the length. -/
theorem appendTo_eq (s : State) (m : Message) (w v : Nat) :
    appendTo s m w v = .next
      (if m.dataLen.toNat + w ≤ s.params.maxPayload then
        s.answered .ok (.message (appended s m (leBytes w v)))
      else s.answered .payloadFull (.message m)) := by
  obtain ⟨hfull, hend⟩ | ⟨hfits, hend⟩ := appendTo_cases s m w v
  · rw [hend, if_neg (Nat.not_le.mpr hfull)]
  · rw [hend, if_pos hfits, appended, leBytes_length, BitVec.ofNat_add, BitVec.ofNat_toNat,
      BitVec.setWidth_eq]

theorem appendTo_toNat (s : State) (m : Message) {n : Nat} (w : Nat) (v : BitVec n) :
    appendTo s m w v.toNat = .next
      (if m.dataLen.toNat + w ≤ s.params.maxPayload then
        s.answered .ok (.message
          (appended s m ((List.range w).map fun k => v.extractLsb' (8 * k) 8)))
      else s.answered .payloadFull (.message m)) := by
  rw [appendTo_eq, leBytes_toNat]

/-- Settles O7: `appendTo_toNat` at the widths 1, 2 and 4. -/
theorem appendsWriteLittleEndianOrLeaveMessage :
    Obligations.AppendsWriteLittleEndianOrLeaveMessage := by
  intro s m
  refine ⟨fun v => ?_, appendTo_toNat s m 2, appendTo_toNat s m 4⟩
  rw [← leBytes_one_toNat v]
  exact appendTo_eq s m 1 v.toNat

theorem exec_appendU24_of_present {s : State} (h : s.params.cursorHasU24 = true) (m : Message)
    (v : BitVec 24) : exec (.appendU24 m v) s = appendTo s m 3 v.toNat := if_pos h

theorem exec_appendU24_of_absent {s : State} (h : s.params.cursorHasU24 = false) (m : Message)
    (v : BitVec 24) : exec (.appendU24 m v) s = .refused (.unassignedCommand 0x13) :=
  if_neg (Bool.not_eq_true _ ▸ h)

/-- Settles O8: `appendTo_toNat` at the width 3. -/
theorem appendU24WritesWhereItExists : Obligations.AppendU24WritesWhereItExists :=
  fun s m v => ⟨fun h => (exec_appendU24_of_present h m v).trans (appendTo_toNat s m 3 v),
    fun h => exec_appendU24_of_absent h m v⟩

/-! ## Reads -/

/-- What READ_U8, READ_U16 and READ_U32 share (R117 to R119): the end of a read of `w` bytes whose
value is answered as `asResult` puts it. -/
def readTo (s : State) (buf : List Byte) (len offset : Byte) (w : Nat) (asResult : Nat → Result) :
    Result3 :=
  match readLe s.opCount buf len offset w with
  | none => respond s .readOutOfRange .none
  | some v => respond s .ok (asResult v)

section
variable (s : State) (buf : List Byte) (len offset : Byte)

theorem exec_readU8 : exec (.readU8 buf len offset) s =
    readTo s buf len offset 1 fun v => .byte (BitVec.ofNat 8 v) := rfl

theorem exec_readU16 : exec (.readU16 buf len offset) s =
    readTo s buf len offset 2 fun v => .half (BitVec.ofNat 16 v) := rfl

theorem exec_readU32 : exec (.readU32 buf len offset) s =
    readTo s buf len offset 4 fun v => .word (BitVec.ofNat 32 v) := rfl

variable {buf len offset}

theorem readLe_of_fits {op w : Nat} (h : offset.toNat + w ≤ len.toNat) :
    readLe op buf len offset w =
      some (leValue (((window op buf len.toNat).drop offset.toNat).take w)) :=
  if_neg (Nat.not_lt.mpr h)

variable {s}

theorem readTo_of_none {w : Nat} (h : readLe s.opCount buf len offset w = none)
    (asResult : Nat → Result) :
    readTo s buf len offset w asResult = .next (s.answered .readOutOfRange .none) := by
  simp [readTo, h]

theorem readTo_of_some {w v : Nat} (h : readLe s.opCount buf len offset w = some v)
    (asResult : Nat → Result) :
    readTo s buf len offset w asResult = .next (s.answered .ok (asResult v)) := by
  simp [readTo, h]

end

theorem take_drop_eq_map_getD {bytes : List Byte} {o w : Nat} (h : o + w ≤ bytes.length) :
    (bytes.drop o).take w = (List.range w).map fun k => bytes.getD (o + k) 0 := by
  apply List.ext_getElem
  · simp
    omega
  · intro k _ hk
    have hk : k < w := by simpa using hk
    have hin : o + k < bytes.length := by omega
    simp [hin]

/-- A read of any width (R120): the test, then the bytes at the offset. -/
theorem readTo_eq (s : State) (buf : List Byte) (len offset : Byte) (w : Nat)
    (asResult : Nat → Result) :
    readTo s buf len offset w asResult = .next
      (if offset.toNat + w ≤ len.toNat then
        s.answered .ok (asResult (leValue ((List.range w).map fun k =>
          (window s.opCount buf len.toNat).getD (offset.toNat + k) 0)))
      else s.answered .readOutOfRange .none) := by
  by_cases hfits : offset.toNat + w ≤ len.toNat
  · rw [readTo_of_some (readLe_of_fits hfits), if_pos hfits, take_drop_eq_map_getD (by simpa)]
  · rw [readTo_of_none (readLe_none.mpr (Nat.not_le.mp hfits)), if_neg hfits]

/-- The window shows the buffer wherever the buffer reaches (70_reset_and_hazards.md R237). -/
theorem window_getElem? {op : Nat} {buf : List Byte} {n i : Nat} (hn : i < n)
    (hi : i < buf.length) : (window op buf n)[i]? = buf[i]? := by
  rw [window, List.getElem?_append_left (by simp; omega), List.getElem?_take_of_lt hn]

/-- Settles O9: `readTo_eq` at the widths 1, 2 and 4. -/
theorem readsAssembleLittleEndianOrFail : Obligations.ReadsAssembleLittleEndianOrFail := by
  intro s buf len offset b
  refine ⟨fun i => window_getElem?, ?_, ?_, ?_⟩
  · rw [← ofNat_leValue_singleton (b 0)]
    exact readTo_eq s buf len offset 1 _
  · rw [← ofNat_leValue_two]
    exact readTo_eq s buf len offset 2 _
  · rw [← ofNat_leValue_four]
    exact readTo_eq s buf len offset 4 _

/-! ## Reads after an append -/

theorem answered_inj {s : State} {st st' : Status} {r r' : Result} :
    s.answered st r = s.answered st' r' ↔ st = st' ∧ r = r' := by
  simp [State.answered, State.addResponse]

theorem appendTo_ok {s : State} {m m' : Message} {w v : Nat}
    (h : appendTo s m w v = .next (s.answered .ok (.message m'))) :
    m.dataLen.toNat + w ≤ s.params.maxPayload ∧ m' = appended s m (leBytes w v) := by
  rw [appendTo_eq, Host.Outcome.next.injEq] at h
  split at h
  · next hfits =>
    obtain ⟨-, hm⟩ := answered_inj.mp h
    exact ⟨hfits, (Result.message.inj hm).symm⟩
  · obtain ⟨hst, -⟩ := answered_inj.mp h
    cases hst

theorem readTo_ok {s : State} {buf : List Byte} {len offset : Byte} {w : Nat}
    {asResult : Nat → Result} {r : Result}
    (h : readTo s buf len offset w asResult = .next (s.answered .ok r)) :
    ∃ v, readLe s.opCount buf len offset w = some v ∧ asResult v = r := by
  cases hread : readLe s.opCount buf len offset w with
  | none =>
    rw [readTo_of_none hread, Host.Outcome.next.injEq] at h
    obtain ⟨hst, -⟩ := answered_inj.mp h
    cases hst
  | some v =>
    rw [readTo_of_some hread, Host.Outcome.next.injEq] at h
    obtain ⟨-, hr⟩ := answered_inj.mp h
    exact ⟨v, rfl, hr⟩

theorem maxPayload_le_255 {p : Params} (hp : p.legal = true) : p.maxPayload ≤ 255 := by
  simp [Params.legal] at hp
  simp [Params.maxPayload]
  omega

/-- `m'` is `m` with `bytes` after its payload, to every operation that reads the payload. -/
def ExtendsPayload (m m' : Message) (bytes : List Byte) : Prop :=
  ∀ op, window op m'.data m'.dataLen.toNat = window op m.data m.dataLen.toNat ++ bytes

/-- The length byte of a legal implementation holds the new length, so the window of the new
Message is all it holds; and the payload that the append kept is held, hence the same to every
operation (10_state.md R25). -/
theorem appended_extendsPayload {s : State} {m : Message} {bytes : List Byte}
    (hp : s.params.legal = true) (hm : m.Held)
    (hfits : m.dataLen.toNat + bytes.length ≤ s.params.maxPayload) :
    ExtendsPayload m (appended s m bytes) bytes := by
  intro op
  have hmax := maxPayload_le_255 hp
  have hpayload : payload s.opCount m = window op m.data m.dataLen.toNat :=
    (window_of_le _ _ _ hm).trans (window_of_le _ _ _ hm).symm
  have hlen : (appended s m bytes).dataLen.toNat = (appended s m bytes).data.length := by
    simp [appended]
    omega
  rw [hlen, window_self, ← hpayload]
  rfl

namespace ExtendsPayload

variable {m m' : Message} {bytes : List Byte}

theorem dataLen_toNat (h : ExtendsPayload m m' bytes) :
    m'.dataLen.toNat = m.dataLen.toNat + bytes.length := by
  simpa using congrArg List.length (h 0)

/-- A read within the old length does not reach the new bytes. -/
theorem readLe_keeps (h : ExtendsPayload m m' bytes) {op w v : Nat} {off : Byte}
    (hread : readLe op m.data m.dataLen off w = some v) :
    readLe op m'.data m'.dataLen off w = some v := by
  obtain ⟨hfits, rfl⟩ := readLe_some hread
  rw [readLe_of_fits (hfits.trans (h.dataLen_toNat ▸ Nat.le_add_right _ _)), h op,
    List.drop_append_of_le_length (by simp; omega), List.take_append_of_le_length (by simp; omega)]

/-- A read at the old length, as wide as the new bytes, reads them. -/
theorem readLe_new (h : ExtendsPayload m m' bytes) (op : Nat) :
    readLe op m'.data m'.dataLen m.dataLen bytes.length = some (leValue bytes) := by
  rw [readLe_of_fits h.dataLen_toNat.ge, h op, List.drop_left' (window_length ..),
    List.take_length]

theorem readTo_keeps (h : ExtendsPayload m m' bytes) {s : State} {off : Byte} {w : Nat}
    {asResult : Nat → Result} {r : Result}
    (hread : readTo s m.data m.dataLen off w asResult = .next (s.answered .ok r)) :
    readTo s m'.data m'.dataLen off w asResult = .next (s.answered .ok r) := by
  obtain ⟨v, hv, rfl⟩ := readTo_ok hread
  exact readTo_of_some (h.readLe_keeps hv) asResult

theorem keepsReads (h : ExtendsPayload m m' bytes) : KeepsReads m m' :=
  fun _ _ _ => ⟨h.readTo_keeps, h.readTo_keeps, h.readTo_keeps⟩

end ExtendsPayload

/-- R122 for every width: the reads of the old Message are kept, and the value appended is read at
the old length. -/
theorem appendTo_reads_back {s : State} {m m' : Message} {n w : Nat} {v : BitVec n}
    (hn : n = 8 * w) (hp : s.params.legal = true) (hm : m.Held)
    (h : appendTo s m w v.toNat = .next (s.answered .ok (.message m'))) :
    KeepsReads m m' ∧ ∀ (s' : State) (asResult : BitVec n → Result),
      readTo s' m'.data m'.dataLen m.dataLen w (fun x => asResult (BitVec.ofNat n x)) =
        .next (s'.answered .ok (asResult v)) := by
  obtain ⟨hfits, rfl⟩ := appendTo_ok h
  have hext := appended_extendsPayload (bytes := leBytes w v.toNat) hp hm (by simpa using hfits)
  refine ⟨hext.keepsReads, fun s' asResult => ?_⟩
  have hread := hext.readLe_new s'.opCount
  have hvalue : leValue (leBytes w v.toNat) = v.toNat := by
    rw [leValue_leBytes, show 256 ^ w = 2 ^ n by rw [hn, Nat.pow_mul], Nat.mod_eq_of_lt v.isLt]
  rw [leBytes_length, hvalue] at hread
  rw [readTo_of_some hread, BitVec.ofNat_toNat, BitVec.setWidth_eq]

/-- Settles O10: `appendTo_reads_back` at the widths 1, 2 and 4. -/
theorem readsGiveBackWhatWasAppended : Obligations.ReadsGiveBackWhatWasAppended := by
  intro s m m' hp hm
  refine ⟨fun v h => ?_, fun v h => ?_, fun v h => ?_⟩
  · obtain ⟨hkeeps, hback⟩ := appendTo_reads_back rfl hp hm h
    exact ⟨hkeeps, fun s' => hback s' .byte⟩
  · obtain ⟨hkeeps, hback⟩ := appendTo_reads_back rfl hp hm h
    exact ⟨hkeeps, fun s' => hback s' .half⟩
  · obtain ⟨hkeeps, hback⟩ := appendTo_reads_back rfl hp hm h
    exact ⟨hkeeps, fun s' => hback s' .word⟩

/-! ## The Context takes no part -/

/-- From a state with whatever Context, the operation ends with the same status and results and
does nothing else. -/
def AnswersAlike (s : State) (op : State → Result3) : Prop :=
  ∃ st r, ∀ x : Option Context,
    op { s with ctx := x } = .next ({ s with ctx := x }.answered st r)

theorem AnswersAlike.ignoresContext {s t : State} {op : State → Result3}
    (h : AnswersAlike s op) (ht : op s = .next t) (x : Option Context) :
    t.ctx = s.ctx ∧ op { s with ctx := x } = .next { t with ctx := x } := by
  obtain ⟨st, r, hop⟩ := h
  cases (hop s.ctx).symm.trans ht
  exact ⟨rfl, hop x⟩

theorem appendTo_answersAlike (s : State) (m : Message) (w v : Nat) :
    AnswersAlike s fun u => appendTo u m w v := by
  cases h : appendLe s.params s.opCount m w v <;>
    exact ⟨_, _, fun x => by simp only [appendTo, h]; rfl⟩

theorem readTo_answersAlike (s : State) (buf : List Byte) (len offset : Byte) (w : Nat)
    (asResult : Nat → Result) : AnswersAlike s fun u => readTo u buf len offset w asResult := by
  cases h : readLe s.opCount buf len offset w <;>
    exact ⟨_, _, fun x => by simp only [readTo, h]; rfl⟩

theorem execEncode_answersAlike (s : State) (m : Message) (cap : Nat) :
    AnswersAlike s (execEncode m cap) := by
  cases h : encodeFrame s.params m (payload s.opCount m) cap <;>
    exact ⟨_, _, fun x => by simp only [execEncode, h]; rfl⟩

theorem execDecode_false_answersAlike (s : State) (bytes : List Byte) (n : Nat) :
    AnswersAlike s (execDecode bytes n false) := by
  cases h : decodeFrame s.params (window s.opCount bytes n) <;>
    exact ⟨_, _, fun x => by simp only [execDecode, decodeAlone, h]; rfl⟩

/-- The operations of R231 that end; APPEND_U24 ends where it exists. -/
theorem exec_answersAlike {i : Instr} {s t : State} (hi : needsNoContext i = true)
    (ht : exec i s = .next t) : AnswersAlike s (exec i) := by
  cases i
  case crc8 bytes => exact ⟨.ok, .byte (crc8 s.params.crcImpl bytes), fun _ => rfl⟩
  case msgInit typeId opcode =>
    exact ⟨.ok, .message (emptyMessage s.opCount typeId opcode), fun _ => rfl⟩
  case appendU8 | appendU16 | appendU32 => exact appendTo_answersAlike s _ _ _
  case appendU24 m v =>
    cases hhas : s.params.cursorHasU24 with
    | false =>
      rw [exec_appendU24_of_absent hhas] at ht
      cases ht
    | true =>
      obtain ⟨st, r, happend⟩ := appendTo_answersAlike s m 3 v.toNat
      exact ⟨st, r, fun x =>
        (exec_appendU24_of_present (s := { s with ctx := x }) hhas m v).trans (happend x)⟩
  case readU8 | readU16 | readU32 => exact readTo_answersAlike s _ _ _ _ _
  case encode => exact execEncode_answersAlike s _ _
  case decode bytes n useCtx =>
    cases useCtx with
    | false => exact execDecode_false_answersAlike s bytes n
    | true => cases hi
  all_goals cases hi

/-- Settles O42, by `exec_answersAlike`. -/
theorem contextFreeOperationsIgnoreTheContext :
    Obligations.ContextFreeOperationsIgnoreTheContext :=
  fun _ _ _ x hi ht => (exec_answersAlike hi ht).ignoresContext ht x

end Sys2Proof.Machine
end

section
/-! PROOFS for 42_codec.md: ENCODE (R131, R132), DECODE (R134 to R139), their inversion of each
other (R140), single-bit errors (R141) and the 4-byte frame (R142). The codec reports a fault
exactly where the bytes have it (`decodeFrame_eq_error_iff`) and a Message exactly where they begin
with its frame; what DECODE answers is read off that, and what a bit flip does is read off the
length byte and the residue of the CRC. -/

namespace Sys2Proof.Machine

open Sys2Proof

/-! ## ENCODE -/

theorem exec_encode_of_ok {s : State} {m : Message} {cap : Nat} {bytes : List Byte}
    (h : encodeFrame s.params m (payload s.opCount m) cap = .ok bytes) :
    exec (.encode m cap) s = .next (s.answered .ok (.frame bytes.length bytes)) := by
  simp [exec, execEncode, h, respond_eq]

theorem exec_encode_of_error {s : State} {m : Message} {cap : Nat} {st : Status}
    (h : encodeFrame s.params m (payload s.opCount m) cap = .error st) :
    exec (.encode m cap) s = .next (s.answered st (.frame 0 [])) := by
  simp [exec, execEncode, h, respond_eq]

@[simp] theorem frameBytes_length (op : Nat) (m : Message) :
    (frameBytes op m).length = 4 + m.dataLen.toNat := by
  simp [frameBytes]
  omega

/-- A Message that fits is encoded to its frame and the frame's length (42_codec.md R131). -/
theorem exec_encode_fits {s : State} {m : Message} {cap : Nat}
    (hm : m.dataLen.toNat ≤ s.params.maxPayload) (hcap : 4 + m.dataLen.toNat ≤ cap) :
    exec (.encode m cap) s =
      .next (s.answered .ok (.frame (4 + m.dataLen.toNat) (frameBytes s.opCount m))) := by
  rw [exec_encode_of_ok (encodeFrame_fits s.opCount hm hcap), frameBytes_length]

/-- Settles O12, by the three ends of an encode. -/
theorem encodeAnswersFrameOrNothing : Obligations.EncodeAnswersFrameOrNothing := by
  intro s m cap
  obtain ⟨hover, h⟩ | ⟨hmax, hsmall, h⟩ | ⟨hmax, hroom, -⟩ :=
    encodeFrame_cases s.params m (payload s.opCount m) cap
  · rw [exec_encode_of_error h, if_pos hover]
  · rw [exec_encode_of_error h, if_neg (Nat.not_lt.mpr hmax), if_pos (by omega)]
  · rw [exec_encode_fits hmax hroom, if_neg (Nat.not_lt.mpr hmax), if_neg (by omega)]

/-! ## Frames, faults and the codec -/

/-- The fault that the codec reports is one that the bytes have (R135, R212): each test that failed
is the fault's clause. Where the CRC test failed the bytes begin with no frame at all, because the
codec accepts every frame. -/
theorem frameFault_of_decodeFrame_error {p : Params} {present : List Byte} {st : Status}
    (h : decodeFrame p present = .error st) : FrameFault p present st := by
  by_cases hshort : present.length < 4
  · rw [decodeFrame_short hshort] at h
    cases h
    exact .inl ⟨rfl, hshort⟩
  · have hfour := Nat.not_lt.mp hshort
    have hnoFrame : ∀ t o l data, ¬ IsFrame p present t o l data := fun t o l data hframe => by
      rw [decodeFrame_of_isFrame hframe] at h
      cases h
    obtain ⟨t, o, l, b, rest, rfl⟩ := exists_header_of_four_le hfour
    rw [decodeFrame_cons] at h
    split at h
    · next hover =>
      cases h
      exact .inr (.inl ⟨rfl, hfour, hover⟩)
    split at h
    · next hmax htrunc =>
      cases h
      exact .inr (.inr (.inl ⟨rfl, hfour, Nat.not_lt.mp hmax, by simp; omega⟩))
    split at h
    · next hmax hwhole _ =>
      cases h
      exact .inr (.inr (.inr ⟨rfl, hfour, Nat.not_lt.mp hmax, by simp; omega, hnoFrame⟩))
    · cases h

theorem decodeFrame_eq_error_iff {p : Params} {present : List Byte} {st : Status} :
    decodeFrame p present = .error st ↔ FrameFault p present st :=
  ⟨frameFault_of_decodeFrame_error, decodeFrame_of_fault⟩

theorem conforms_eq_true_iff {p : Params} {present : List Byte} :
    conforms p present = true ↔ ∃ t o l data, IsFrame p present t o l data := by
  constructor
  · intro h
    unfold conforms at h
    split at h
    · next m hd => exact ⟨_, _, _, _, isFrame_of_decodeFrame_ok hd⟩
    · cases h
  · rintro ⟨t, o, l, data, hframe⟩
    simp [conforms, decodeFrame_of_isFrame hframe]

theorem conforms_eq_false_iff {p : Params} {present : List Byte} :
    conforms p present = false ↔ ∃ st, FrameFault p present st := by
  simp only [← decodeFrame_eq_error_iff]
  cases hd : decodeFrame p present <;> simp [conforms, hd]

/-- The codec answers one status for the bytes, so they have one fault. -/
theorem FrameFault.unique {p : Params} {present : List Byte} {st st' : Status}
    (h : FrameFault p present st) (h' : FrameFault p present st') : st = st' :=
  Except.error.inj ((decodeFrame_of_fault h).symm.trans (decodeFrame_of_fault h'))

/-- The codec answers one Message for the bytes, so they begin with one frame. -/
theorem IsFrame.frameMessage_unique {p : Params} {present : List Byte} {t o l t' o' l' : Byte}
    {data data' : List Byte} (h : IsFrame p present t o l data)
    (h' : IsFrame p present t' o' l' data') :
    frameMessage t o l data = frameMessage t' o' l' data' :=
  Except.ok.inj ((decodeFrame_of_isFrame h).symm.trans (decodeFrame_of_isFrame h'))

/-- Settles O13: every clause is what the codec, a function, answers. -/
theorem bytesAreOneFrameOrOneFault : Obligations.BytesAreOneFrameOrOneFault := by
  refine fun p present => ⟨conforms_eq_true_iff, conforms_eq_false_iff,
    fun st st' => FrameFault.unique, ?_⟩
  intro t o l data t' o' l' data' h h'
  have hsame := h.frameMessage_unique h'
  exact ⟨congrArg Message.typeId hsame, congrArg Message.opcode hsame,
    congrArg Message.dataLen hsame, congrArg Message.data hsame⟩

/-! ## DECODE -/

section
variable {s : State} {c : Context} {bytes : List Byte} {n : Nat}

theorem exec_decode_alone_of_ok {m : Message}
    (h : decodeFrame s.params (window s.opCount bytes n) = .ok m) :
    exec (.decode bytes n false) s = .next (s.answered .ok (.message m)) := by
  simp [exec, execDecode, decodeAlone, h, respond_eq]

theorem exec_decode_alone_of_error {st : Status}
    (h : decodeFrame s.params (window s.opCount bytes n) = .error st) :
    exec (.decode bytes n false) s = .next (s.answered st .none) := by
  simp [exec, execDecode, decodeAlone, h, respond_eq]

theorem exec_decode_against_of_ok {m : Message} (hc : s.ctx = some c)
    (h : decodeFrame s.params (window s.opCount bytes n) = .ok m) :
    exec (.decode bytes n true) s =
      .next ((s.setCtx (recordSuccess c)).answered .ok (.message m)) := by
  simp [exec, execDecode, withContext_some hc, decodeAgainst, h, respond_eq]

/-- A fault that the counter has room for is counted once (R136). -/
theorem exec_decode_counts_fault {st : Status} (hc : s.ctx = some c)
    (hroom : c.crcErrorCount < s.params.counterMax)
    (h : FrameFault s.params (window s.opCount bytes n) st) :
    exec (.decode bytes n true) s = .next ((s.setCtx
      { c with crcErrorCount := c.crcErrorCount + 1, lastCrcOk := false }).answered st .none) :=
  (exec_decode_of_fault hc h).trans (failedDecode_ok (recordFailure_below hroom) st)

/-- A frame is answered with its Message whether or not it is decoded against a Context. -/
theorem exec_decode_answers {m : Message} {u : Bool} (hu : u = true → s.ctx ≠ none)
    (h : decodeFrame s.params (window s.opCount bytes n) = .ok m) :
    ∃ t, exec (.decode bytes n u) s = .next t ∧
      t.responses = s.responses ++ [{ status := .ok, result := .message m }] := by
  cases u with
  | false => exact ⟨_, exec_decode_alone_of_ok h, rfl⟩
  | true =>
    obtain ⟨c, hc⟩ := Option.ne_none_iff_exists'.mp (hu rfl)
    exact ⟨_, exec_decode_against_of_ok hc h, rfl⟩

end

/-- Settles O14: the codec answers the frame's Message or the fault, and DECODE reports it. -/
theorem decodeWithoutContextAnswersMessageOrFault :
    Obligations.DecodeWithoutContextAnswersMessageOrFault := fun _ _ _ =>
  ⟨fun _ _ _ _ h => exec_decode_alone_of_ok (decodeFrame_of_isFrame h),
    fun _ h => exec_decode_alone_of_error (decodeFrame_of_fault h)⟩

/-- Settles O15: as without the Context, and the success or the failure recorded. -/
theorem decodeAgainstContextMovesStatistics : Obligations.DecodeAgainstContextMovesStatistics :=
  fun _ _ _ _ hc =>
    ⟨fun _ _ _ _ h => exec_decode_against_of_ok hc (decodeFrame_of_isFrame h),
      fun _ h hroom => exec_decode_counts_fault hc hroom h⟩

/-! ## ENCODE and DECODE are inverse -/

theorem maxPayload_congr {p q : Params} (h : p.frameMax = q.frameMax) :
    p.maxPayload = q.maxPayload := congrArg (· - 4) h

theorem payload_of_held {m : Message} (hm : m.Held) (op : Nat) :
    payload op m = m.data.take m.dataLen.toNat := window_of_le op _ _ hm

theorem frameMessage_same {m : Message} (hm : m.Held) (op : Nat) :
    (frameMessage m.typeId m.opcode m.dataLen (payload op m)).Same m := by
  refine ⟨rfl, rfl, rfl, ?_⟩
  simp [frameMessage, payload_of_held hm]

/-- The bytes of a legal frame are the frame of its Message, whatever operation reads it. -/
theorem IsFrame.take_eq_frameBytes {p : Params} {present : List Byte} {m : Message}
    (h : IsFrame p present m.typeId m.opcode m.dataLen m.data) (op : Nat) :
    present.take (4 + m.dataLen.toNat) = frameBytes op m := by
  obtain ⟨hlen, -, extra, rfl⟩ := h
  have hpayload : payload op m = m.data := by rw [payload, ← hlen, window_self]
  have hfour : 4 + m.dataLen.toNat = m.data.length + 1 + 3 := by omega
  simp [frameBytes, hpayload, hfour, List.take_append]

/-- The two ends of a DECODE that is not refused, with or without a Context: the Message that the
codec answers, or the status that it reports and no Message. -/
theorem exec_decode_next {s t : State} {bytes : List Byte} {n : Nat} {u : Bool}
    (h : exec (.decode bytes n u) s = .next t) :
    (∃ m, decodeFrame s.params (window s.opCount bytes n) = .ok m ∧
      t.responses = s.responses ++ [{ status := .ok, result := .message m }]) ∨
    (∃ st, decodeFrame s.params (window s.opCount bytes n) = .error st ∧
      t.responses = s.responses ++ [{ status := st, result := .none }]) := by
  cases u with
  | false =>
    cases hd : decodeFrame s.params (window s.opCount bytes n) with
    | ok m =>
      cases (exec_decode_alone_of_ok hd).symm.trans h
      exact .inl ⟨m, rfl, rfl⟩
    | error st =>
      cases (exec_decode_alone_of_error hd).symm.trans h
      exact .inr ⟨st, rfl, rfl⟩
  | true =>
    obtain ⟨c, hc, -⟩ := withContext_next h
    cases hd : decodeFrame s.params (window s.opCount bytes n) with
    | ok m =>
      cases (exec_decode_against_of_ok hc hd).symm.trans h
      exact .inl ⟨m, rfl, rfl⟩
    | error st =>
      have hfailed := (exec_decode_of_fault hc (frameFault_of_decodeFrame_error hd)).symm.trans h
      cases hr : recordFailure s.params c with
      | error r => cases (failedDecode_error hr st).symm.trans hfailed
      | ok c' =>
        cases (failedDecode_ok hr st).symm.trans hfailed
        exact .inr ⟨st, rfl, rfl⟩

/-- A DECODE that answers a Message with OK has accepted the bytes. -/
theorem decodeFrame_of_exec_decode {s t : State} {bytes : List Byte} {n : Nat} {u : Bool}
    {m : Message} (h : exec (.decode bytes n u) s = .next t)
    (hm : t.responses = s.responses ++ [{ status := .ok, result := .message m }]) :
    decodeFrame s.params (window s.opCount bytes n) = .ok m := by
  obtain ⟨m', hd, hm'⟩ | ⟨st, -, hst⟩ := exec_decode_next h
  · have hsame : m' = m := by simpa [hm'] using hm
    exact hsame ▸ hd
  · simp [hst] at hm

/-- Settles O17. Forth: the frame that ENCODE answers is a frame for the other endpoint too, and the
codec accepts it. Back: what the codec accepted is the frame of the Message, which has room in
FRAME_MAX bytes because its length is valid. -/
theorem encodeAndDecodeAreInverse : Obligations.EncodeAndDecodeAreInverse := by
  constructor
  · intro s s' m cap u hheld hvalid hcap hframeMax hu
    have hframe : IsFrame s'.params (frameBytes s.opCount m) m.typeId m.opcode m.dataLen
        (payload s.opCount m) :=
      isFrame_frameBytes (hvalid.trans_eq (maxPayload_congr hframeMax.symm))
    obtain ⟨t, ht, hanswer⟩ := exec_decode_answers (s := s') (u := u) hu
      ((window_self s'.opCount (frameBytes s.opCount m)).symm ▸ decodeFrame_of_isFrame hframe)
    exact ⟨_, _, t, exec_encode_of_ok (encodeFrame_fits s.opCount hvalid hcap), ht, hanswer,
      frameMessage_same hheld s.opCount⟩
  · intro s s' t m bytes n u hlegal hframeMax hdecode hanswer
    have haccepted := decodeFrame_of_exec_decode hdecode hanswer
    have hmax : m.dataLen.toNat ≤ s'.params.maxPayload :=
      (decodeFrame_valid haccepted).trans_eq (maxPayload_congr hframeMax.symm)
    have hroom : 4 + m.dataLen.toNat ≤ s'.params.frameMax :=
      (Nat.add_le_add_left hmax 4).trans_eq (four_add_maxPayload hlegal)
    rw [(isFrame_of_decodeFrame_ok haccepted).take_eq_frameBytes s'.opCount]
    exact exec_encode_fits hmax hroom

/-! ## The frame of an empty Message -/

theorem frameBytes_emptyMessage (op n : Nat) (t o : Byte) :
    frameBytes op (emptyMessage n t o) = [t, o, 0, crcBits [t, o, 0]] := rfl

theorem isFrame_empty (p : Params) (t o : Byte) (extra : List Byte) :
    IsFrame p (t :: o :: 0 :: crcBits [t, o, 0] :: extra) t o 0 [] :=
  ⟨rfl, Nat.zero_le _, extra, rfl⟩

/-- Settles O18: the Message is `emptyMessage`, whose length is valid for every FRAME_MAX. -/
theorem emptyMessageIsFourBytes : Obligations.EmptyMessageIsFourBytes := by
  intro s s₁ t o m cap hinit
  obtain ⟨-, hm⟩ := answered_inj.mp (Host.Outcome.next.inj hinit)
  cases hm
  refine ⟨fun hroom => ?_, fun hsmall => ?_, ?_⟩
  · exact exec_encode_fits (m := emptyMessage s.opCount t o) (Nat.zero_le _) hroom
  · exact (encodeAnswersFrameOrNothing s₁ _ cap).trans (by simp [emptyMessage, hsmall])
  · exact exec_decode_alone_of_ok (decodeFrame_of_isFrame (isFrame_empty _ t o []))

/-! ## Single-bit errors -/

theorem flipBit_length (bytes : List Byte) (j k : Nat) :
    (flipBit bytes j k).length = bytes.length := List.length_set

theorem flipBit_getD_same {bytes : List Byte} {j : Nat} (hj : j < bytes.length) (k : Nat) :
    (flipBit bytes j k).getD j 0 = bytes.getD j 0 ^^^ (1#8 <<< k) := by
  simp [flipBit, hj]

theorem flipBit_getD_of_ne {j i : Nat} (h : j ≠ i) (bytes : List Byte) (k : Nat) :
    (flipBit bytes j k).getD i 0 = bytes.getD i 0 := by
  simp [flipBit, List.getElem?_set_ne h]

theorem crcBits_frameBytes (op : Nat) (m : Message) : crcBits (frameBytes op m) = 0 :=
  crcBits_append_crc (m.typeId :: m.opcode :: m.dataLen :: payload op m)

/-- The byte in the CRC's place of a legal frame is the CRC of the bytes before it. -/
theorem IsFrame.getD_crc {p : Params} {present : List Byte} {t o l : Byte} {data : List Byte}
    (h : IsFrame p present t o l data) :
    present.getD (3 + l.toNat) 0 = crcBits (present.take (3 + l.toNat)) := by
  obtain ⟨hlen, -, extra, rfl⟩ := h
  simp [← hlen, Nat.add_comm 3]

theorem IsFrame.getD_length {p : Params} {present : List Byte} {t o l : Byte} {data : List Byte}
    (h : IsFrame p present t o l data) : present.getD 2 0 = l := by
  obtain ⟨-, -, extra, rfl⟩ := h
  rfl

/-- The last fault (R135): the declared length is valid and all there, and the byte in the CRC's
place is not the CRC of the span that the length declares. -/
theorem crcMismatch_of_getD {p : Params} {present : List Byte} {l : Byte}
    (hl : present.getD 2 0 = l) (hmax : l.toNat ≤ p.maxPayload)
    (hwhole : 4 + l.toNat ≤ present.length)
    (hcrc : present.getD (3 + l.toNat) 0 ≠ crcBits (present.take (3 + l.toNat))) :
    FrameFault p present .crcMismatch := by
  subst hl
  refine .inr (.inr (.inr ⟨rfl, by omega, hmax, hwhole, fun t o l data hframe => ?_⟩))
  rw [hframe.getD_length] at hcrc
  exact hcrc hframe.getD_crc

/-- A sequence with a CRC that is not 0 does not end in the CRC of what is before. -/
theorem getD_ne_crcBits_take {bytes : List Byte} {n : Nat} (hn : bytes.length = n + 1)
    (h : crcBits bytes ≠ 0) : bytes.getD n 0 ≠ crcBits (bytes.take n) := by
  intro hlast
  have hsplit : bytes.take n ++ [crcBits (bytes.take n)] = bytes := by
    rw [← hlast, List.getD_eq_getElem _ _ (by omega), List.take_append_getElem,
      List.take_of_length_le hn.le]
  exact h (hsplit ▸ crcBits_append_crc (bytes.take n))

section
variable {p : Params} {m : Message} {op j k : Nat}

/-- A flip outside the length byte keeps the span, and changes its residue. -/
theorem crcMismatch_of_flip (hm : m.dataLen.toNat ≤ p.maxPayload)
    (hj : j < (frameBytes op m).length) (hk : k < 8) (hj2 : j ≠ 2) :
    FrameFault p (flipBit (frameBytes op m) j k) .crcMismatch := by
  have hlen : (flipBit (frameBytes op m) j k).length = 4 + m.dataLen.toNat := by
    rw [flipBit_length, frameBytes_length]
  have hresidue := crcBits_frameBytes op m ▸ crcBits_flipBit_ne hj hk
  exact crcMismatch_of_getD (l := m.dataLen) (flipBit_getD_of_ne hj2 _ k) hm hlen.ge
    (getD_ne_crcBits_take (by omega) hresidue)

theorem flipLength_getD : (flipBit (frameBytes op m) 2 k).getD 2 0 = m.dataLen ^^^ (1#8 <<< k) :=
  flipBit_getD_same (by simp; omega) k

/-- A raised length is over the capacity, or more than the bytes there are. -/
theorem fault_of_raisedLength (h : m.dataLen.toNat < (m.dataLen ^^^ (1#8 <<< k)).toNat) :
    FrameFault p (flipBit (frameBytes op m) 2 k) .declaredLenOverCapacity ∨
      FrameFault p (flipBit (frameBytes op m) 2 k) .truncated := by
  have hlen : (flipBit (frameBytes op m) 2 k).length = 4 + m.dataLen.toNat := by
    rw [flipBit_length, frameBytes_length]
  rw [← flipLength_getD (op := op)] at h
  obtain hover | hmax := Nat.lt_or_ge p.maxPayload ((flipBit (frameBytes op m) 2 k).getD 2 0).toNat
  · exact .inl (.inr (.inl ⟨rfl, by omega, hover⟩))
  · exact .inr (.inr (.inr (.inl ⟨rfl, by omega, hmax, by omega⟩)))

/-- A lowered length declares a shorter span, whose CRC is then what counts. -/
theorem crcMismatch_of_loweredLength (hm : m.dataLen.toNat ≤ p.maxPayload) {l : Byte}
    (hl : l = m.dataLen ^^^ (1#8 <<< k)) (h : l.toNat < m.dataLen.toNat)
    (hcrc : (flipBit (frameBytes op m) 2 k).getD (3 + l.toNat) 0 ≠
      crcBits ((flipBit (frameBytes op m) 2 k).take (3 + l.toNat))) :
    FrameFault p (flipBit (frameBytes op m) 2 k) .crcMismatch := by
  refine crcMismatch_of_getD (flipLength_getD.trans hl.symm) (h.le.trans hm) ?_ hcrc
  rw [flipBit_length, frameBytes_length]
  omega

end

theorem crcBits_three_zeros : crcBits [0, 0, 0] = 0 := crcBits_replicate_zero 3

theorem frameMessage_zeros :
    frameMessage 0 0 0 [] =
      { typeId := 0, opcode := 0, dataLen := 0, data := [], crc8 := 0x00 } := by
  rw [frameMessage, crcBits_three_zeros]

/-- The rule's example (R141): the flip makes the length 0, and the byte then in the CRC's place is
the CRC of three zero bytes. -/
theorem flipBit_example :
    flipBit [0x00, 0x00, 0x01, 0x00, 0x15] 2 0 = [0, 0, 0, crcBits [0, 0, 0], 0x15] := by
  rw [crcBits_three_zeros]
  decide

/-- Settles O19: each flip makes a fault, and a fault is counted once. -/
theorem singleBitErrorsAreCaught : Obligations.SingleBitErrorsAreCaught := by
  constructor
  · intro s c m op j k hc hroom hvalid hj hk bad l fails
    have fails_of_fault : ∀ {st}, FrameFault s.params bad st → fails st := by
      intro st hfault
      refine exec_decode_counts_fault hc hroom ?_
      rwa [← flipBit_length (frameBytes op m) j k, window_self]
    refine ⟨fun hj2 => fails_of_fault (crcMismatch_of_flip hvalid hj hk hj2), ?_, ?_⟩
    · rintro rfl hraised
      exact (fault_of_raisedLength hraised).imp fails_of_fault fails_of_fault
    · rintro rfl hlowered hcrc
      exact fails_of_fault (crcMismatch_of_loweredLength hvalid rfl hlowered hcrc)
  · intro s _
    rw [flipBit_example, ← frameMessage_zeros]
    exact exec_decode_alone_of_ok (decodeFrame_of_isFrame (isFrame_empty s.params 0 0 [0x15]))

end Sys2Proof.Machine
end

section
/-! PROOFS for 43_dispatch.md: set-up (R152 to R154), the receive path (R156 to R162, R168), the
callback that does not return (R169), REQUEST (R163 to R165), SEND (R166), and the paths of the
other role (R170). Under the invariant a lookup is membership in the slots in use, so what REGISTER
does to lookups is read off what it does to those slots. An instruction of the receive path does
what the path does with its bytes, and the path does with a legal frame what `dispatchMessage` does
with its Message, which is said here branch by branch. -/

namespace Sys2Proof.Machine

open Sys2Proof

/-! ## Callbacks and scripted answers -/

/-- A callback that returns is called once, and the operation ends (R169). -/
theorem withCallback_respond_returns {s : State} (h : s.CallbackReturns) (call : EnvCall) :
    (withCallback s call fun s' => respond s' .ok .none) =
      .next ((s.afterCallback call).answered .ok .none) := withCallback_returns h call _

/-- A callback that issues an operation spoils the run (R169, U5). -/
theorem withCallback_reenters {s : State} (h : s.answers.popReentry.1 = true) (call : EnvCall)
    (k : State → Result3) : withCallback s call k = .refused .reentered := by
  simp [withCallback, h]

theorem popReentry_snd (a : Answers) :
    a.popReentry.2 = { a with reentries := a.reentries.tail } := by
  cases a with
  | mk writes probes reads replies reentries => cases reentries <;> rfl

theorem popReply_eq (a : Answers) (free : Message) :
    a.popReply free = (a.replies.headD free, { a with replies := a.replies.tail }) := by
  cases a with
  | mk writes probes reads replies reentries => cases replies <;> rfl

theorem popWrite_eq (a : Answers) (free : Bool) :
    a.popWrite free = (a.writes.headD free, { a with writes := a.writes.tail }) := by
  cases a with
  | mk writes probes reads replies reentries => cases writes <;> rfl

/-! ## Set-up -/

/-- Settles O23. -/
theorem callbackWiringWritesOneField : Obligations.CallbackWiringWritesOneField :=
  fun _ _ _ hc => ⟨withContext_some hc _, withContext_some hc _⟩

/-! ## The handler table

With the opcodes in use pairwise different (R32), a slot in use is the one that the lookup of its
opcode finds. -/

theorem Context.Wf.eq_of_opcode_eq {p : Params} {c : Context} (h : c.Wf p) {sl sl' : Slot}
    (hsl : sl ∈ c.used) (hsl' : sl' ∈ c.used) (hop : sl.opcode = sl'.opcode) : sl = sl' :=
  List.inj_on_of_nodup_map h.opcodesDistinct hsl hsl' hop

theorem Context.Wf.lookup_eq_some_iff {p : Params} {c : Context} (h : c.Wf p) {op : Byte}
    {sl : Slot} : c.lookup op = some sl ↔ sl ∈ c.used ∧ sl.opcode = op := by
  refine ⟨lookup_some, fun ⟨hsl, hop⟩ => ?_⟩
  cases hfound : c.lookup op with
  | none => exact absurd hop (lookup_none.mp hfound sl hsl)
  | some sl' =>
    obtain ⟨hsl', hop'⟩ := lookup_some hfound
    rw [h.eq_of_opcode_eq hsl' hsl (hop'.trans hop.symm)]

section
variable {p : Params} {c c' : Context} {sl : Slot}

/-- The slot of a duplicate is replaced where it stands, even on a full table (R152): it is the
first slot with its opcode because it is the only one. -/
theorem registered_duplicate (h : c.Wf p) {k : Nat} {u : Slot} (hu : c.used[k]? = some u)
    (hop : u.opcode = sl.opcode) :
    c.registered p sl = some { c with handlerTable := c.handlerTable.set k sl } := by
  obtain ⟨hk, rfl⟩ := List.getElem?_eq_some_iff.mp hu
  have hfirst : c.used.findIdx? (fun v => v.opcode == sl.opcode) = some k := by
    refine List.findIdx?_eq_some_iff_getElem.mpr ⟨hk, by simpa using hop, fun j hj hdup => ?_⟩
    have hsame : c.used[j].opcode = c.used[k].opcode := (beq_iff_eq.mp hdup).trans hop.symm
    have hjk : j = k := by
      rw [← h.opcodesDistinct.getElem_inj_iff (hi := by simp; omega) (hj := by simpa using hk)]
      simpa using hsame
    exact hj.ne hjk
  simp only [Context.registered, hfirst]

theorem findIdx?_used_of_new (hnew : ∀ u ∈ c.used, u.opcode ≠ sl.opcode) :
    c.used.findIdx? (fun u => u.opcode == sl.opcode) = none :=
  List.findIdx?_eq_none_iff.mpr fun u hu => beq_eq_false_iff_ne.mpr (hnew u hu)

/-- A new opcode takes the next free slot (R152). -/
theorem registered_new (hnew : ∀ u ∈ c.used, u.opcode ≠ sl.opcode)
    (hroom : c.handlerCount < p.hcap) :
    c.registered p sl = some { c with
      handlerTable := c.handlerTable.set c.handlerCount sl
      handlerCount := c.handlerCount + 1 } := by
  simp only [Context.registered, findIdx?_used_of_new hnew, if_neg (Nat.not_le.mpr hroom),
    ge_iff_le]

/-- A new opcode finds no slot in a full table (R152). -/
theorem registered_full (hnew : ∀ u ∈ c.used, u.opcode ≠ sl.opcode)
    (hfull : p.hcap ≤ c.handlerCount) : c.registered p sl = none := by
  simp only [Context.registered, findIdx?_used_of_new hnew, if_pos hfull, ge_iff_le]

theorem used_set (c : Context) (k : Nat) (sl : Slot) :
    ({ c with handlerTable := c.handlerTable.set k sl } : Context).used = c.used.set k sl :=
  List.take_set

theorem used_set_next (h : c.Wf p) (hroom : c.handlerCount < p.hcap) (sl : Slot) :
    ({ c with handlerTable := c.handlerTable.set c.handlerCount sl
              handlerCount := c.handlerCount + 1 } : Context).used = c.used ++ [sl] := by
  have hlt : c.handlerCount < c.handlerTable.length := h.tableSize ▸ hroom
  simp [Context.used, List.take_add_one, hlt, List.take_set_of_le]

theorem mem_used_of_registered (h : c.Wf p) (hreg : c.registered p sl = some c') :
    sl ∈ c'.used := by
  obtain ⟨k, u, hu, -, rfl⟩ | ⟨-, hroom, rfl⟩ := registered_some hreg
  · obtain ⟨hk, -⟩ := List.getElem?_eq_some_iff.mp hu
    rw [used_set]
    exact List.mem_set hk sl
  · simp [used_set_next h hroom]

/-- The slots of the other opcodes are as they were (R152). -/
theorem mem_used_registered_iff (h : c.Wf p) (hreg : c.registered p sl = some c') {x : Slot}
    (hx : x.opcode ≠ sl.opcode) : x ∈ c'.used ↔ x ∈ c.used := by
  have hxsl : x ≠ sl := fun heq => hx (heq ▸ rfl)
  obtain ⟨k, u, hu, hop, rfl⟩ | ⟨-, hroom, rfl⟩ := registered_some hreg
  · have hkeeps : ∀ j, c.used[j]? = some x → (c.used.set k sl)[j]? = some x := fun j hj => by
      have hkj : k ≠ j := by
        rintro rfl
        cases hu.symm.trans hj
        exact hx hop
      rwa [List.getElem?_set_ne hkj]
    rw [used_set]
    constructor
    · exact fun hmem => (List.mem_or_eq_of_mem_set hmem).resolve_right hxsl
    · intro hmem
      obtain ⟨j, hj⟩ := List.mem_iff_getElem?.mp hmem
      exact List.mem_of_getElem? (hkeeps j hj)
  · simp [used_set_next h hroom, hxsl]

end

section
variable {s : State} {c : Context} {o : Byte} {cb : Cb} {ud : Ud}

theorem exec_register_refused (hc : s.ctx = some c) (hcb : cb = Cb.NONE) :
    exec (.register o cb ud) s = .refused .noneCallback :=
  (withContext_some hc _).trans (if_pos hcb)

theorem exec_register_some {c' : Context} (hc : s.ctx = some c) (hcb : cb ≠ Cb.NONE)
    (hreg : c.registered s.params ⟨o, cb, ud⟩ = some c') :
    exec (.register o cb ud) s = .next ((s.setCtx c').answered .ok .none) := by
  simp [exec, execRegister, withContext_some hc, hcb, hreg, respond_eq]

theorem exec_register_none (hc : s.ctx = some c) (hcb : cb ≠ Cb.NONE)
    (hreg : c.registered s.params ⟨o, cb, ud⟩ = none) :
    exec (.register o cb ud) s = .next (s.answered .tableFull .none) := by
  simp [exec, execRegister, withContext_some hc, hcb, hreg, respond_eq]

/-- A REGISTER that answers OK has written the table. -/
theorem registered_of_exec_register {t : State} {c' : Context} (hc : s.ctx = some c)
    (h : exec (.register o cb ud) s = .next t)
    (hok : t.responses = s.responses ++ [{ status := .ok, result := .none }])
    (htc : t.ctx = some c') :
    cb ≠ Cb.NONE ∧ c.registered s.params ⟨o, cb, ud⟩ = some c' := by
  by_cases hcb : cb = Cb.NONE
  · cases (exec_register_refused hc hcb).symm.trans h
  · cases hreg : c.registered s.params ⟨o, cb, ud⟩ with
    | none =>
      cases (exec_register_none hc hcb hreg).symm.trans h
      simp at hok
    | some c₁ =>
      cases (exec_register_some hc hcb hreg).symm.trans h
      cases htc
      exact ⟨hcb, rfl⟩

end

/-- Settles O21, by the three ends of a registration. -/
theorem registerReplacesAppendsOrReportsFull :
    Obligations.RegisterReplacesAppendsOrReportsFull := by
  intro s c o cb ud hc hwf
  refine ⟨exec_register_refused hc, fun hcb => ⟨fun k sl hsl hop => ?_, fun hnew hroom => ?_,
    fun hnew hfull => ?_⟩⟩
  · exact exec_register_some hc hcb (registered_duplicate hwf hsl hop)
  · exact exec_register_some hc hcb (registered_new hnew hroom)
  · exact exec_register_none hc hcb (registered_full hnew hfull.ge)

/-- Settles O22: the new slot is in use, the slots of the other opcodes are as they were, and the
new table is well formed too. -/
theorem registeredHandlerIsFound : Obligations.RegisteredHandlerIsFound := by
  intro s t c c' o cb ud hc hwf h hok htc
  obtain ⟨hcb, hreg⟩ := registered_of_exec_register hc h hok htc
  have hwf' : c'.Wf s.params := hwf.of_registered hcb hreg
  refine ⟨hwf'.lookup_eq_some_iff.mpr ⟨mem_used_of_registered hwf hreg, rfl⟩, fun o' ho' => ?_⟩
  ext x
  rw [hwf'.lookup_eq_some_iff, hwf.lookup_eq_some_iff]
  exact and_congr_left fun hx => mem_used_registered_iff hwf hreg (hx.trans_ne ho')

/-! ## The dispatch of a decoded Message

`dispatchMessage_setReply` is the branch of a SET_REPLY with a payload. -/

section
variable {s : State} {c : Context} {m : Message}

theorem dispatchMessage_setReply_empty (hop : m.opcode = 0xFE#8) (hlen : m.dataLen.toNat = 0) :
    dispatchMessage s c m = .next (s.answered .ok .none) := by
  simp [dispatchMessage, hop, hlen, respond_eq]

theorem dispatchMessage_handler {sl : Slot} (hop : m.opcode ≠ 0xFE#8)
    (hsl : c.lookup m.opcode = some sl) :
    dispatchMessage s c m =
      withCallback s (.handler sl.cb m.opcode m.data m.dataLen sl.ud) fun s' =>
        respond s' .ok .none := by
  simp [dispatchMessage, hop, hsl]

theorem dispatchMessage_onMessage (hop : m.opcode ≠ 0xFE#8) (hnone : c.lookup m.opcode = none)
    (hset : c.onMessage ≠ Cb.NONE) :
    dispatchMessage s c m =
      withCallback s (.onMessage c.onMessage m) fun s' => respond s' .ok .none := by
  simp [dispatchMessage, hop, hnone, hset]

theorem dispatchMessage_ignored (hop : m.opcode ≠ 0xFE#8) (hnone : c.lookup m.opcode = none)
    (hunset : c.onMessage = Cb.NONE) : dispatchMessage s c m = .next (s.answered .ok .none) := by
  simp [dispatchMessage, hop, hnone, hunset, respond_eq]

/-- Whatever the Message, its dispatch ends OK where the callback returns (R168). -/
theorem dispatchMessage_completes (s : State) (c : Context) (m : Message)
    (hret : s.CallbackReturns) :
    ∃ t, dispatchMessage s c m = .next t ∧
      t.responses = s.responses ++ [{ status := .ok, result := .none }] := by
  by_cases hop : m.opcode = 0xFE#8
  · obtain hlen | hlen := Nat.eq_zero_or_pos m.dataLen.toNat
    · exact ⟨_, dispatchMessage_setReply_empty hop hlen, rfl⟩
    · exact ⟨_, dispatchMessage_setReply hop hlen, rfl⟩
  · cases hl : c.lookup m.opcode with
    | some sl =>
      exact ⟨_, (dispatchMessage_handler hop hl).trans (withCallback_respond_returns hret _), rfl⟩
    | none =>
      by_cases hset : c.onMessage = Cb.NONE
      · exact ⟨_, dispatchMessage_ignored hop hl hset, rfl⟩
      · exact ⟨_, (dispatchMessage_onMessage hop hl hset).trans
          (withCallback_respond_returns hret _), rfl⟩

/-- A dispatch that comes to a callback which re-enters the block is refused (R169, U5). -/
theorem dispatchMessage_reenters (hop : m.opcode ≠ 0xFE#8)
    (hcalls : (∃ sl ∈ c.used, sl.opcode = m.opcode) ∨ c.onMessage ≠ Cb.NONE)
    (hre : s.answers.popReentry.1 = true) : dispatchMessage s c m = .refused .reentered := by
  cases hl : c.lookup m.opcode with
  | some sl => exact (dispatchMessage_handler hop hl).trans (withCallback_reenters hre _ _)
  | none =>
    have hset : c.onMessage ≠ Cb.NONE :=
      hcalls.resolve_left fun ⟨sl, hsl, hslop⟩ => lookup_none.mp hl sl hsl hslop
    exact (dispatchMessage_onMessage hop hl hset).trans (withCallback_reenters hre _ _)

/-- A dispatch stages an opcode or makes one call, and not both (R162). -/
theorem dispatchMessage_one_consequence {t : State} (hc : s.ctx = some c)
    (h : dispatchMessage s c m = .next t) :
    ∃ c', t.ctx = some c' ∧ (t.calls = s.calls ∨
      (c'.requestedOpcode = c.requestedOpcode ∧ ∃ call, t.calls = s.calls ++ [call])) := by
  obtain ⟨-, -, rfl⟩ | ⟨-, -, rfl⟩ | ⟨sl, -, -, -, rfl⟩ | ⟨-, -, -, -, rfl⟩ | ⟨-, -, -, rfl⟩ :=
    dispatchMessage_next h
  · exact ⟨_, rfl, .inl rfl⟩
  · exact ⟨c, hc, .inl rfl⟩
  · exact ⟨c, hc, .inr ⟨rfl, _, rfl⟩⟩
  · exact ⟨c, hc, .inr ⟨rfl, _, rfl⟩⟩
  · exact ⟨c, hc, .inl rfl⟩

end

/-! ## The receive path -/

/-- An instruction of the receive path takes it with some bytes, whatever the state. -/
theorem exec_of_receives {i : Instr} (h : receives i) (s : State) :
    ∃ present, exec i s = receivePath s present := by
  obtain ⟨present₀, h⟩ := h
  cases i
  case receive | frameGeneral | frameUnclassified80BF | frameUnclassifiedC0DF
      | frameUnclassifiedE0EF | frameUnclassifiedF0F7 | frameUnclassifiedF8FB
      | frameUnclassifiedFCFD | frameSetReply | frameReservedFF =>
    exact ⟨_, exec_of_presented rfl⟩
  all_goals cases h

/-- An instruction that presents a legal frame dispatches its Message as a good decode (R156). -/
theorem exec_of_isFrame {i : Instr} {s : State} {c : Context} {present : List Byte} {t o l : Byte}
    {data : List Byte} (hi : presented s.opCount i = some present) (hc : s.ctx = some c)
    (hrole : c.role = .peripheral) (h : IsFrame s.params present t o l data) :
    exec i s =
      dispatchMessage (s.setCtx (recordSuccess c)) (recordSuccess c) (frameMessage t o l data) :=
  (exec_of_presented hi).trans (receivePath_of_isFrame hc hrole h)

/-- Settles O25: the path ends in `failedDecode`, which counts below the counter's top. -/
theorem badFrameIsDroppedAndCounted : Obligations.BadFrameIsDroppedAndCounted := by
  intro i s c present st hi hc hrole hfault hroom
  calc exec i s
    _ = receivePath s present := exec_of_presented hi
    _ = failedDecode s c .ok := receivePath_of_fault hc hrole hfault
    _ = _ := failedDecode_ok (recordFailure_below hroom) .ok

/-- Settles O26: a payload's first byte is staged, and an empty payload stages nothing. -/
theorem setReplyFrameStagesItsFirstByte : Obligations.SetReplyFrameStagesItsFirstByte := by
  intro i s c present t l data hi hc hrole hframe
  have hdispatch := exec_of_isFrame hi hc hrole hframe
  obtain ⟨hlen, -, -⟩ := hframe
  cases data with
  | nil => exact hdispatch.trans (dispatchMessage_setReply_empty rfl hlen.symm)
  | cons b rest =>
    exact hdispatch.trans (dispatchMessage_setReply rfl (hlen ▸ Nat.succ_pos rest.length))

/-- Settles O27: under the invariant the slot is the one that the lookup finds. -/
theorem registeredOpcodeCallsItsHandler : Obligations.RegisteredOpcodeCallsItsHandler := by
  intro i s c present t o l data sl hi hc hrole hframe ho hwf hsl hop hret
  have hfound : (recordSuccess c).lookup o = some sl := hwf.lookup_eq_some_iff.mpr ⟨hsl, hop⟩
  calc exec i s
    _ = dispatchMessage _ _ (frameMessage t o l data) := exec_of_isFrame hi hc hrole hframe
    _ = withCallback _ _ _ := dispatchMessage_handler ho hfound
    _ = _ := withCallback_respond_returns (s := s.setCtx (recordSuccess c)) hret _

/-- Settles O28: the lookup finds nothing, and `on_message` is called. -/
theorem unregisteredOpcodeCallsOnMessage : Obligations.UnregisteredOpcodeCallsOnMessage := by
  intro i s c present t o l data hi hc hrole hframe ho hnew hset hret
  have hnone : (recordSuccess c).lookup o = none := lookup_none.mpr hnew
  calc exec i s
    _ = dispatchMessage _ _ (frameMessage t o l data) := exec_of_isFrame hi hc hrole hframe
    _ = withCallback _ _ _ := dispatchMessage_onMessage ho hnone hset
    _ = _ := withCallback_respond_returns (s := s.setCtx (recordSuccess c)) hret _

/-- Settles O29: the lookup finds nothing and there is nobody else to call. -/
theorem unknownOpcodeIsIgnored : Obligations.UnknownOpcodeIsIgnored := by
  intro i s c present t o l data hi hc hrole hframe ho hnew hunset
  have hnone : (recordSuccess c).lookup o = none := lookup_none.mpr hnew
  exact (exec_of_isFrame hi hc hrole hframe).trans (dispatchMessage_ignored ho hnone hunset)

/-- Settles O30: a bad frame calls nobody, and a good one is dispatched. -/
theorem oneFrameHasAtMostOneConsequence : Obligations.OneFrameHasAtMostOneConsequence := by
  intro i s t c hi hc h
  obtain ⟨present, hpath⟩ := exec_of_receives hi s
  obtain ⟨c₁, hc₁, -, ⟨-, c', -, -, rfl⟩ | ⟨m, -, hm⟩⟩ := receivePath_next (hpath.symm.trans h)
  · exact ⟨c', rfl, .inl rfl⟩
  · cases hc.symm.trans hc₁
    exact dispatchMessage_one_consequence (s := s.setCtx (recordSuccess c)) (c := recordSuccess c)
      rfl hm

/-- A failure is refused only at the counter's top (U4). -/
theorem exists_recordFailure_ok {p : Params} {c : Context}
    (h : c.crcErrorCount < p.counterMax ∨ p.counterTop ≠ .refuse) :
    ∃ c', recordFailure p c = .ok c' := by
  obtain hroom | htop := Nat.lt_or_ge c.crcErrorCount p.counterMax
  · exact ⟨_, recordFailure_below hroom⟩
  · have hset := h.resolve_left (Nat.not_lt.mpr htop)
    cases hct : p.counterTop with
    | refuse => exact absurd hct hset
    | wrap => exact ⟨_, recordFailure_wrap htop hct⟩
    | saturate => exact ⟨_, recordFailure_saturate htop hct⟩

/-- Settles O31: bytes with a fault end in a counted failure, and a frame in its dispatch. -/
theorem arrivingBytesNeverHaltTheEndpoint : Obligations.ArrivingBytesNeverHaltTheEndpoint := by
  intro i s c hi hc hrole hret hcounter
  obtain ⟨present, hpath⟩ := exec_of_receives hi s
  rw [hpath]
  cases hd : decodeFrame s.params present with
  | error st =>
    obtain ⟨c', hfail⟩ := exists_recordFailure_ok hcounter
    have hfault := frameFault_of_decodeFrame_error hd
    exact ⟨_, (receivePath_of_fault hc hrole hfault).trans (failedDecode_ok hfail .ok), rfl⟩
  | ok m =>
    obtain ⟨t, ht, hanswer⟩ := dispatchMessage_completes (s.setCtx (recordSuccess c))
      (recordSuccess c) (frameMessage m.typeId m.opcode m.dataLen m.data) hret
    exact ⟨t, (receivePath_of_isFrame hc hrole (isFrame_of_decodeFrame_ok hd)).trans ht, hanswer⟩

/-! ## REQUEST -/

/-- A Message too long for the implementation is not encoded, whatever room there is (42_codec.md
R132). -/
theorem encodeFrame_over {p : Params} {m : Message} {data : List Byte} {cap : Nat}
    (hover : p.maxPayload < m.dataLen.toNat) :
    encodeFrame p m data cap = .error .lenOverCapacity := if_pos hover

/-- The reply is the frame of the Message, or zero bytes where its length is over MAX_PAYLOAD: a
valid Message has room in FRAME_MAX bytes (R163, R165). -/
theorem replyWith_eq {s : State} (hp : s.params.legal = true) (op : Nat) (m : Message) :
    replyWith s op m = .next (s.answered .ok
      (if m.dataLen.toNat ≤ s.params.maxPayload then
        .frame (4 + m.dataLen.toNat) (frameBytes op m)
      else .frame 0 [])) := by
  have hroom := four_add_maxPayload hp
  by_cases hm : m.dataLen.toNat ≤ s.params.maxPayload
  · have hencode := encodeFrame_fits op (cap := s.params.frameMax) hm (by omega)
    simp [replyWith, hencode, hm, respond_eq]
  · simp [replyWith, encodeFrame_over (Nat.not_le.mp hm), hm, respond_eq]

section
variable {s : State} {c : Context}

theorem exec_request_unset (hc : s.ctx = some c) (hrole : c.role = .peripheral)
    (hunset : c.onRequest = Cb.NONE) :
    exec .request s = replyWith s s.opCount (emptyMessage s.opCount 0 0) := by
  simp [exec, execRequest, withRole_some hc hrole, hunset]

theorem exec_request_set (hc : s.ctx = some c) (hrole : c.role = .peripheral)
    (hset : c.onRequest ≠ Cb.NONE) :
    exec .request s =
      withCallback s (.onRequest c.onRequest c.requestedOpcode (emptyMessage s.opCount 0 0))
        fun s' => replyWith
          (s'.setAnswers { s'.answers with replies := s'.answers.replies.tail }) s.opCount
          (s'.answers.replies.headD (Config.freeReply s.opCount)) := by
  simp [exec, execRequest, withRole_some hc hrole, hset, popReply_eq]

end

/-- Settles O34: the reply is the frame of the empty Message, whose CRC is that of three zero
bytes. -/
theorem requestWithoutCallbackAnswersEmptyFrame :
    Obligations.RequestWithoutCallbackAnswersEmptyFrame := by
  intro s c hp hc hrole hunset
  rw [exec_request_unset hc hrole hunset, replyWith_eq hp, frameBytes_emptyMessage,
    crcBits_three_zeros]
  simp [emptyMessage]

/-- Settles O35: the callback is called and answers the next scripted Message or a free one, which
is the reply. -/
theorem requestAnswersWhatTheCallbackFills : Obligations.RequestAnswersWhatTheCallbackFills := by
  intro s c hp hc hrole hset hret
  refine ⟨emptyMessage s.opCount 0 0, s.answers.replies.headD (Config.freeReply s.opCount),
    rfl, rfl, rfl, fun m' rest hscript => by simp [hscript], ?_⟩
  rw [exec_request_set hc hrole hset, withCallback_returns hret, popReentry_snd]
  exact replyWith_eq (s := (s.afterCallback _).setAnswers _) hp _ _

/-- Settles O33: a dispatch that comes to a callback is refused, and so is a REQUEST that does. -/
theorem reentryFromACallbackIsRefused : Obligations.ReentryFromACallbackIsRefused := by
  intro s c hc hrole hre
  constructor
  · intro i present t o l data hi hframe ho hcalls
    exact (exec_of_isFrame hi hc hrole hframe).trans (dispatchMessage_reenters ho hcalls hre)
  · intro hset
    exact (exec_request_set hc hrole hset).trans (withCallback_reenters hre _ _)

/-! ## SEND -/

theorem execSend_over {s : State} {c : Context} (hc : s.ctx = some c) (hrole : c.role = .controller)
    {m : Message} (hover : s.params.maxPayload < m.dataLen.toNat) (dest : Byte) :
    execSend dest m s = .next (s.answered .lenOverCapacity .none) := by
  simp [execSend, withRole_some hc hrole, encodeFrame_over hover, respond_eq]

/-- Settles O36: the encode fails, or the transport answers what is scripted next or a free
value. -/
theorem sendWritesOneFrameOrReports : Obligations.SendWritesOneFrameOrReports := by
  intro s c dest m hp hc hrole
  refine ⟨fun hover => execSend_over hc hrole hover dest, fun hfits => ?_⟩
  exact ⟨s.answers.writes.headD (Config.freeWrite s.opCount), fun ok' rest hscript => by
    simp [hscript], execSend_fits s dest m hp hc hrole hfits (popWrite_eq _ _)⟩

/-! ## The paths of the other role -/

theorem withRole_other {s : State} {c : Context} {r : Role} (hc : s.ctx = some c)
    (hr : c.role ≠ r) (k : Context → Result3) : withRole r s k = .refused .wrongRole := by
  simp [withRole, withContext_some hc, hr]

/-- Settles O41: each of the paths asks for its role first. -/
theorem otherRolesPathsAreRefused : Obligations.OtherRolesPathsAreRefused := by
  intro s c hc
  constructor
  · intro hrole
    have hother : c.role ≠ .peripheral := by simp [hrole]
    refine ⟨withRole_other hc hother _, fun i hi => ?_⟩
    obtain ⟨present, hpath⟩ := exec_of_receives hi s
    exact hpath.trans (withRole_other hc hother _)
  · intro hrole dest start stop m strict cap tm
    have hother : c.role ≠ .controller := by simp [hrole]
    exact ⟨withRole_other hc hother _, withRole_other hc hother _⟩

end Sys2Proof.Machine
end

section
/-! PROOFS for 44_scanner.md: a scan is its addresses one after another (R181), and the work that
one address leaves is told by what it found, what it asked and which answers are left (R182 to
R186). -/

namespace Sys2Proof.Machine

open Sys2Proof

/-! ## The transport's answers -/

theorem popProbe_reads (a : Answers) (free : Bool) : (a.popProbe free).2.reads = a.reads := by
  cases h : a.probes <;> simp [Answers.popProbe, h]

/-- Where every scripted read is of its type, and so is the free one, the next read is of its type
and the script keeps to it (U9). -/
theorem popRead_inType {a : Answers} {free : List Byte} {n : Nat}
    (ha : ∀ b ∈ a.reads, b.length ≤ n) (hfree : free.length ≤ n) :
    (a.popRead free).1.length ≤ n ∧ ∀ b ∈ (a.popRead free).2.reads, b.length ≤ n := by
  cases h : a.reads with
  | nil => simp [Answers.popRead, h, hfree]
  | cons b reads => simpa [Answers.popRead, h] using ha

/-- The answers of a bus of devices to a scan of the addresses, and then those of `after`. -/
def busScript (dev : List (Byte × List Byte)) (strict : Bool) (after : Answers)
    (addrs : List Byte) : Answers :=
  { after with
    probes := addrs.map (fun a => (dev.lookup a).isSome) ++ after.probes
    reads := (if strict then addrs.filterMap (fun a => dev.lookup a) else []) ++ after.reads }

theorem busAnswers_iff {s : State} {addrs : List Byte} {dev : List (Byte × List Byte)}
    {strict : Bool} {after : Answers} :
    s.busAnswers addrs dev strict after ↔ s.answers = busScript dev strict after addrs := by
  constructor
  · rintro ⟨hprobes, hreads, hwrites, hreplies, hreentries⟩
    rw [busScript, ← hprobes, ← hreads, ← hwrites, ← hreplies, ← hreentries]
  · intro h
    rw [State.busAnswers, h]
    exact ⟨rfl, rfl, rfl, rfl, rfl⟩

section
variable {dev : List (Byte × List Byte)} {after : Answers} {a : Byte}

theorem busScript_nil (dev : List (Byte × List Byte)) (strict : Bool) (after : Answers) :
    busScript dev strict after [] = after := by simp [busScript]

theorem popProbe_busScript (strict : Bool) (addrs : List Byte) (free : Bool) :
    (busScript dev strict after (a :: addrs)).popProbe free =
      ((dev.lookup a).isSome, { busScript dev strict after (a :: addrs) with
        probes := (busScript dev strict after addrs).probes }) := rfl

theorem popProbe_busScript_silent (h : dev.lookup a = none) (strict : Bool) (addrs : List Byte)
    (free : Bool) :
    (busScript dev strict after (a :: addrs)).popProbe free =
      (false, busScript dev strict after addrs) := by
  rw [popProbe_busScript]
  simp [busScript, h]

theorem popProbe_busScript_acknowledged {bytes : List Byte} (h : dev.lookup a = some bytes)
    (addrs : List Byte) (free : Bool) :
    (busScript dev false after (a :: addrs)).popProbe free =
      (true, busScript dev false after addrs) := by
  rw [popProbe_busScript]
  simp [busScript, h]

theorem popProbe_busScript_read {bytes : List Byte} (h : dev.lookup a = some bytes)
    (addrs : List Byte) (free : Bool) :
    (busScript dev true after (a :: addrs)).popProbe free =
      (true, { busScript dev true after addrs with
        reads := bytes :: (busScript dev true after addrs).reads }) := by
  rw [popProbe_busScript]
  simp [busScript, h]

end

/-! ## What one address leaves -/

/-- The work after more addresses, given which of them were found, upward, the calls made for them
and the answers left. -/
def ScanWork.scanned (w : ScanWork) (cap : Nat) (hits : List Byte) (calls : List EnvCall)
    (left : Answers) : ScanWork :=
  { count := w.count + hits.length, found := w.found ++ hits.take (cap - w.count),
    answers := left, calls := w.calls ++ calls }

theorem scanned_scanned (w : ScanWork) (cap : Nat) (hits hits' : List Byte)
    (calls calls' : List EnvCall) (left left' : Answers) :
    (w.scanned cap hits calls left).scanned cap hits' calls' left' =
      w.scanned cap (hits ++ hits') (calls ++ calls') left' := by
  simp [ScanWork.scanned, List.take_append, Nat.add_assoc, Nat.sub_sub]

/-- An address found is stored only while there is room (R186). -/
theorem add_scanned (w : ScanWork) (cap : Nat) (a : Byte) (calls : List EnvCall)
    (left : Answers) :
    (w.scanned cap [] calls left).add cap a = w.scanned cap [a] calls left := by
  by_cases hroom : w.count < cap
  · have htake : [a].take (cap - w.count) = [a] := List.take_of_length_le (by simp; omega)
    simp [ScanWork.add, ScanWork.scanned, hroom, htake]
  · have htake : cap - w.count = 0 := by omega
    simp [ScanWork.add, ScanWork.scanned, hroom, htake]

section
variable {p : Params} {op : Nat} {cap : Nat} {tm : Timeout} {a : Byte} {w : ScanWork}
  {left left' : Answers}

/-- An address that does not acknowledge is not found (R182). -/
theorem scanAddress_silent (strict : Bool)
    (hprobe : w.answers.popProbe (Config.freeProbe op a) = (false, left)) :
    scanAddress p op strict cap tm a w = .ok (w.scanned cap [] [.probe a] left) := by
  simp [scanAddress, scanProbe, hprobe, ScanWork.scanned]

/-- An address that acknowledges is found by a scan that is not strict (R183). -/
theorem scanAddress_acknowledged
    (hprobe : w.answers.popProbe (Config.freeProbe op a) = (true, left)) :
    scanAddress p op false cap tm a w = .ok (w.scanned cap [a] [.probe a] left) := by
  rw [← add_scanned]
  simp [scanAddress, scanProbe, hprobe, ScanWork.scanned]

/-- An address that acknowledges is read by a strict scan, and found if the codec accepts what it
answers (R184). -/
theorem scanAddress_read {bytes : List Byte}
    (hprobe : w.answers.popProbe (Config.freeProbe op a) = (true, left))
    (hread : left.popRead ((Config.freeRead op a).take p.frameMax) = (bytes, left'))
    (hlen : bytes.length ≤ p.frameMax) :
    scanAddress p op true cap tm a w = .ok (w.scanned cap ([a].filter fun _ => conforms p bytes)
      [.probe a, .read a p.frameMax tm] left') := by
  cases hd : decodeFrame p bytes with
  | error st =>
    simp [scanAddress, scanProbe, scanRead, hprobe, hread, Nat.not_lt.mpr hlen, hd, conforms,
      ScanWork.scanned]
  | ok m =>
    have hfound : ([a].filter fun _ => conforms p bytes) = [a] := by simp [conforms, hd]
    rw [hfound, ← add_scanned]
    simp [scanAddress, scanProbe, scanRead, hprobe, hread, Nat.not_lt.mpr hlen, hd,
      ScanWork.scanned]

end

/-! ## A scan, address by address -/

/-- A scan of the addresses of a list, in its order. -/
def scanAddresses (p : Params) (op : Nat) (strict : Bool) (cap : Nat) (tm : Timeout)
    (addrs : List Byte) (w : ScanWork) : Except Refusal ScanWork :=
  addrs.foldlM (fun w a => scanAddress p op strict cap tm a w) w

section
variable {p : Params} {op : Nat} {strict : Bool} {cap : Nat} {tm : Timeout}

theorem scanAddresses_nil (w : ScanWork) : scanAddresses p op strict cap tm [] w = .ok w := rfl

theorem scanAddresses_cons {a : Byte} {w w' : ScanWork}
    (h : scanAddress p op strict cap tm a w = .ok w') (addrs : List Byte) :
    scanAddresses p op strict cap tm (a :: addrs) w = scanAddresses p op strict cap tm addrs w' := by
  rw [scanAddresses, List.foldlM_cons, h]
  rfl

/-- The scan of `k` addresses from `a` upward is that of the list of them (R187). -/
theorem scanFrom_eq_scanAddresses (k a : Nat) (w : ScanWork) :
    scanFrom p op strict cap tm k a w =
      scanAddresses p op strict cap tm ((List.range' a k).map (BitVec.ofNat 8)) w := by
  induction k generalizing a w with
  | zero => rfl
  | succ k ih =>
    rw [scanFrom, List.range'_succ, List.map_cons]
    cases h : scanAddress p op strict cap tm (BitVec.ofNat 8 a) w with
    | error r =>
      rw [scanAddresses, List.foldlM_cons, h]
      rfl
    | ok w' => rw [scanAddresses_cons h, ← ih]

/-- The work before the first address (R181). -/
def ScanWork.initial (answers : Answers) : ScanWork :=
  { count := 0, found := [], answers := answers, calls := [] }

/-- SCAN on a controller answers the work that the addresses of its range leave; the Context is
as before (R188). -/
theorem exec_scan_of_scanAddresses {s : State} {c : Context} {start stop : Byte}
    {hits : List Byte} {calls : List EnvCall} {left : Answers} (hc : s.ctx = some c)
    (hrole : c.role = .controller)
    (h : scanAddresses s.params s.opCount strict cap tm (scanRange start stop)
      (ScanWork.initial s.answers) =
        .ok ((ScanWork.initial s.answers).scanned cap hits calls left)) :
    exec (.scan start stop strict cap tm) s =
      .next (((s.setAnswers left).addCalls calls).answered .ok
        (.scan hits.length (hits.take cap))) := by
  have hfrom := (scanFrom_eq_scanAddresses _ _ _).trans h
  simp only [ScanWork.initial] at hfrom
  simp [exec, execScan, withRole_some hc hrole, hfrom, ScanWork.scanned]

end

/-! ## A bus of devices -/

/-- A scan of the bus finds the address: it has a device, whose bytes the codec accepts if the
scan is strict (R183, R184). -/
def isHit (p : Params) (strict : Bool) (dev : List (Byte × List Byte)) (a : Byte) : Bool :=
  match dev.lookup a with
  | some bytes => !strict || conforms p bytes
  | none => false

/-- The calls that a scan of the bus makes at one address (R182, R184). -/
def busCalls (p : Params) (strict : Bool) (tm : Timeout) (dev : List (Byte × List Byte))
    (a : Byte) : List EnvCall :=
  if strict && (dev.lookup a).isSome then [.probe a, .read a p.frameMax tm] else [.probe a]

section
variable {p : Params} {op : Nat} {strict : Bool} {cap : Nat} {tm : Timeout}
  {dev : List (Byte × List Byte)}

/-- The bytes that a device of the bus answers are those of a pair of the list. -/
theorem length_le_of_lookup {n : Nat} (hdev : ∀ d ∈ dev, d.2.length ≤ n) {a : Byte}
    {bytes : List Byte} (h : dev.lookup a = some bytes) : bytes.length ≤ n := by
  obtain ⟨l₁, l₂, rfl, -⟩ := List.lookup_eq_some_iff.mp h
  exact hdev (a, bytes) (by simp)

/-- One address of a scan of the bus: the probe and the read take the bus's answers for it. -/
theorem scanAddress_of_bus (hdev : ∀ d ∈ dev, d.2.length ≤ p.frameMax) {after : Answers}
    {a : Byte} {addrs : List Byte} {w : ScanWork}
    (hw : w.answers = busScript dev strict after (a :: addrs)) :
    scanAddress p op strict cap tm a w =
      .ok (w.scanned cap ([a].filter (isHit p strict dev)) (busCalls p strict tm dev a)
        (busScript dev strict after addrs)) := by
  cases hlookup : dev.lookup a with
  | none =>
    rw [scanAddress_silent strict (hw ▸ popProbe_busScript_silent hlookup strict addrs _)]
    simp [busCalls, isHit, hlookup]
  | some bytes =>
    cases strict with
    | false =>
      rw [scanAddress_acknowledged (hw ▸ popProbe_busScript_acknowledged hlookup addrs _)]
      simp [busCalls, isHit, hlookup]
    | true =>
      rw [scanAddress_read (hw ▸ popProbe_busScript_read hlookup addrs _) (popRead_cons rfl)
        (length_le_of_lookup hdev hlookup)]
      simp [busCalls, isHit, hlookup, List.filter_singleton]

/-- A scan of the bus finds its devices among the addresses and uses up the bus's answers. -/
theorem scanAddresses_of_bus (hdev : ∀ d ∈ dev, d.2.length ≤ p.frameMax) {after : Answers}
    {addrs : List Byte} {w : ScanWork} (hw : w.answers = busScript dev strict after addrs) :
    scanAddresses p op strict cap tm addrs w =
      .ok (w.scanned cap (addrs.filter (isHit p strict dev))
        (addrs.flatMap (busCalls p strict tm dev)) after) := by
  induction addrs generalizing w with
  | nil =>
    rw [busScript_nil] at hw
    simp [scanAddresses_nil, ScanWork.scanned, ← hw]
  | cons a addrs ih =>
    rw [scanAddresses_cons (scanAddress_of_bus hdev hw), ih rfl, scanned_scanned,
      ← List.filter_append, List.flatMap_cons, List.singleton_append]

end

/-- Settles O38: the scan of the range, by induction over its addresses. -/
theorem scanFindsExactlyTheDevices : Obligations.ScanFindsExactlyTheDevices := by
  intro s c start stop strict cap tm dev after hc hrole hbus hdev
  exact exec_scan_of_scanAddresses hc hrole (scanAddresses_of_bus hdev (busAnswers_iff.mp hbus))

/-! ## Any bus -/

/-- The address that a call probes. -/
def probed : EnvCall → Option Byte
  | .probe a => some a
  | _ => none

/-- What a scan of the addresses leaves, whatever the transport answers: some of them are found, in
their order, each was probed once, and the script of the reads keeps to its type (R185, R187). -/
def ScansThrough (p : Params) (cap : Nat) (addrs : List Byte) (w : ScanWork)
    (r : Except Refusal ScanWork) : Prop :=
  ∃ (hits : List Byte) (calls : List EnvCall) (left : Answers),
    r = .ok (w.scanned cap hits calls left) ∧ hits.Sublist addrs ∧
      calls.filterMap probed = addrs ∧ ∀ b ∈ left.reads, b.length ≤ p.frameMax

section
variable {p : Params} {op : Nat} {strict : Bool} {cap : Nat} {tm : Timeout}

theorem scanAddress_scansThrough {w : ScanWork}
    (hw : ∀ b ∈ w.answers.reads, b.length ≤ p.frameMax) (a : Byte) :
    ScansThrough p cap [a] w (scanAddress p op strict cap tm a w) := by
  have hreads := popProbe_reads w.answers (Config.freeProbe op a)
  cases hprobe : w.answers.popProbe (Config.freeProbe op a) with
  | mk acks left =>
    rw [hprobe] at hreads
    rw [← hreads] at hw
    cases acks with
    | false => exact ⟨_, _, _, scanAddress_silent strict hprobe, by simp, rfl, hw⟩
    | true =>
      cases strict with
      | false => exact ⟨_, _, _, scanAddress_acknowledged hprobe, .refl _, rfl, hw⟩
      | true =>
        obtain ⟨hlen, hleft⟩ := popRead_inType hw (List.length_take_le _ (Config.freeRead op a))
        exact ⟨_, _, _, scanAddress_read hprobe rfl hlen, List.filter_sublist, rfl, hleft⟩

theorem scanAddresses_scansThrough {w : ScanWork}
    (hw : ∀ b ∈ w.answers.reads, b.length ≤ p.frameMax) (addrs : List Byte) :
    ScansThrough p cap addrs w (scanAddresses p op strict cap tm addrs w) := by
  induction addrs generalizing w with
  | nil => exact ⟨[], [], w.answers, by simp [scanAddresses_nil, ScanWork.scanned], .refl _, rfl, hw⟩
  | cons a addrs ih =>
    obtain ⟨hits, calls, left, hone, hhits, hcalls, hleft⟩ := scanAddress_scansThrough hw a
    obtain ⟨hits', calls', left', hrest, hhits', hcalls', hleft'⟩ :=
      ih (w := w.scanned cap hits calls left) hleft
    refine ⟨hits ++ hits', calls ++ calls', left', ?_, hhits.append hhits', ?_, hleft'⟩
    · rw [scanAddresses_cons hone, hrest, scanned_scanned]
    · rw [List.filterMap_append, hcalls, hcalls', List.singleton_append]

end

/-- Settles O39: the scan of the range comes through, whatever is answered within its type. -/
theorem scanAlwaysCompletes : Obligations.ScanAlwaysCompletes := by
  intro s c start stop strict cap tm hc hrole htype
  obtain ⟨hits, calls, left, hscan, hhits, hcalls, -⟩ :=
    scanAddresses_scansThrough (w := ScanWork.initial s.answers) htype (scanRange start stop)
  exact ⟨left, calls, hits.length, hits.take cap, exec_scan_of_scanAddresses hc hrole hscan,
    hhits.length_le, by rw [List.length_take, Nat.min_comm],
    (List.take_sublist _ _).trans hhits, hcalls⟩

end Sys2Proof.Machine
end

section
/-! PROOFS for 60_exceptions.md: the status an operation ends with (R207), what an error leaves in
the Context (R208), the refusal while the Context is absent (R206), and the event "bytes arrived"
(R209). Every instruction is walked through once, in `exec_ending`; R207 and R208 are read off what
that lemma says. -/

namespace Sys2Proof.Machine

open Sys2Proof

/-! ## Bytes that arrive -/

/-- An instruction that stands for arriving bytes presents those bytes. -/
theorem presented_of_encode {i : Instr} {present : List Byte}
    (h : encode i = .bytesArrived present) (op : Nat) : presented op i = some present := by
  cases i
  case frameGeneral | frameUnclassified80BF | frameUnclassifiedC0DF | frameUnclassifiedE0EF
      | frameUnclassifiedF0F7 | frameUnclassifiedF8FB | frameUnclassifiedFCFD | frameSetReply
      | frameReservedFF =>
    cases h
    rfl
  all_goals cases h

/-- Whatever their number, bytes that arrive are presented as they are. -/
theorem presented_decodeArrived (op : Nat) (bytes : List Byte) :
    presented op (decodeArrived bytes) = some bytes := by
  match bytes with
  | t :: o :: l :: rest => exact presented_of_encode (arrivedFrameEncodesBack t o l rest) op
  | [] | [_] | [_, _] => exact congrArg some (window_self op _)

/-- Settles O32: both instructions present the same bytes to the receive path. -/
theorem arrivedFrameActsAsReceive : Obligations.ArrivedFrameActsAsReceive := by
  intro bytes s
  have hreceive : presented s.opCount (.receive bytes bytes.length) = some bytes :=
    congrArg some (window_self s.opCount bytes)
  exact (exec_of_presented (presented_decodeArrived s.opCount bytes)).trans
    (exec_of_presented hreceive).symm

/-! ## While the Context is absent -/

theorem receivePath_absent {s : State} (hc : s.ctx = none) (present : List Byte) :
    receivePath s present = .refused .contextAbsent := withContext_none hc _

/-- Settles O40: each of these operations asks for the Context first. -/
theorem absentContextIsRefused : Obligations.AbsentContextIsRefused := by
  intro i s hc hneeds hinit
  cases i
  case ctxInit => exact absurd ⟨_, _, rfl⟩ hinit
  case register | setOnMessage | setOnRequest | ctxRead | request | send | scan =>
    exact withContext_none hc _
  case decode bytes n useCtx =>
    cases useCtx with
    | false => cases hneeds
    | true => exact withContext_none hc _
  case receive | frameGeneral | frameUnclassified80BF | frameUnclassifiedC0DF
      | frameUnclassifiedE0EF | frameUnclassifiedF0F7 | frameUnclassifiedF8FB
      | frameUnclassifiedFCFD | frameSetReply | frameReservedFF =>
    exact (exec_of_presented rfl).trans (receivePath_absent hc _)
  all_goals cases hneeds

/-! ## How an operation ends -/

/-- The three kinds of ending: OK; an error that leaves the Context alone; and the error of a
DECODE against the Context, which is counted there (42_codec.md R136). -/
inductive Ending (i : Instr) (s t : State) : Prop
  | ok {r : Result} (ht : t.responses = s.responses ++ [⟨.ok, r⟩])
  | error {st : Status} {r : Result} (ht : t.responses = s.responses ++ [⟨st, r⟩])
      (hctx : t.ctx = s.ctx) (hst : s.params.legal = true → st ∈ statusesOf i)
      (hi : ∀ bytes n, i ≠ .decode bytes n true)
  | decodeFailed {bytes present : List Byte} {n : Nat} {c c' : Context} {st : Status} {r : Result}
      (hi : i = .decode bytes n true) (ht : t.responses = s.responses ++ [⟨st, r⟩])
      (hdec : decodeFrame s.params present = .error st) (hc : s.ctx = some c)
      (hfail : recordFailure s.params c = .ok c') (hctx : t.ctx = some c')

theorem ok_mem_statusesOf (i : Instr) : .ok ∈ statusesOf i := by
  cases i <;> exact List.mem_cons_self

theorem mem_statusesOf_decode {p : Params} {present : List Byte} {st : Status}
    (h : decodeFrame p present = .error st) (bytes : List Byte) (n : Nat) (useCtx : Bool) :
    st ∈ statusesOf (.decode bytes n useCtx) := by
  obtain rfl | rfl | rfl | rfl := decodeFrame_error h <;> simp [statusesOf]

/-- A decode fails as `ERR_INTEGRITY` (R202). -/
theorem statusCode_of_decodeFrame_error {p : Params} {present : List Byte} {st : Status}
    (h : decodeFrame p present = .error st) : st.statusCode = 0x02 := by
  obtain rfl | rfl | rfl | rfl := decodeFrame_error h <;> rfl

theorem encodeFrame_error {p : Params} {m : Message} {data : List Byte} {cap : Nat} {st : Status}
    (h : encodeFrame p m data cap = .error st) :
    st = .lenOverCapacity ∨
      (st = .bufferTooSmall ∧ m.dataLen.toNat ≤ p.maxPayload ∧ cap < 4 + m.dataLen.toNat) := by
  obtain ⟨-, hend⟩ | ⟨hmax, hsmall, hend⟩ | ⟨-, -, hend⟩ := encodeFrame_cases p m data cap
  · cases hend.symm.trans h
    exact .inl rfl
  · cases hend.symm.trans h
    exact .inr ⟨rfl, hmax, hsmall⟩
  · cases hend.symm.trans h

/-- With a buffer of FRAME_MAX bytes, as SEND has it, only the length can be refused (R207). -/
theorem encodeFrame_frameMax_error {p : Params} (hp : p.legal = true) {m : Message}
    {data : List Byte} {st : Status} (h : encodeFrame p m data p.frameMax = .error st) :
    st = .lenOverCapacity := by
  have hroom := four_add_maxPayload hp
  obtain rfl | ⟨-, hmax, hsmall⟩ := encodeFrame_error h
  · rfl
  · omega

section
variable {i : Instr} {s t u : State}

namespace Ending

theorem of_ok {r : Result} (h : respond u .ok r = .next t) (hu : u.responses = s.responses) :
    Ending i s t := by
  rw [respond_next] at h
  subst h
  exact .ok (by rw [State.answered_responses, hu])

theorem of_error {st : Status} {r : Result} (h : respond u st r = .next t)
    (hu : u.responses = s.responses) (hctx : u.ctx = s.ctx)
    (hst : s.params.legal = true → st ∈ statusesOf i) (hi : ∀ bytes n, i ≠ .decode bytes n true) :
    Ending i s t := by
  rw [respond_next] at h
  subst h
  exact .error (by rw [State.answered_responses, hu]) hctx hst hi

end Ending

theorem appendTo_ending {m : Message} {w v : Nat} (h : appendTo s m w v = .next t)
    (hst : .payloadFull ∈ statusesOf i) (hi : ∀ bytes n, i ≠ .decode bytes n true) :
    Ending i s t := by
  unfold appendTo at h
  split at h
  · exact .of_error h rfl rfl (fun _ => hst) hi
  · exact .of_ok h rfl

theorem execAppendU24_ending {m : Message} {v : BitVec 24} (h : execAppendU24 m v s = .next t) :
    Ending (.appendU24 m v) s t := by
  unfold execAppendU24 at h
  split at h
  · exact appendTo_ending h (by simp [statusesOf]) nofun
  · cases h

theorem readTo_ending {buf : List Byte} {len offset : Byte} {w : Nat} {asResult : Nat → Result}
    (h : readTo s buf len offset w asResult = .next t) (hst : .readOutOfRange ∈ statusesOf i)
    (hi : ∀ bytes n, i ≠ .decode bytes n true) : Ending i s t := by
  unfold readTo at h
  split at h
  · exact .of_error h rfl rfl (fun _ => hst) hi
  · exact .of_ok h rfl

theorem execEncode_ending {m : Message} {cap : Nat} (h : execEncode m cap s = .next t) :
    Ending (.encode m cap) s t := by
  unfold execEncode at h
  split at h
  · next hencode =>
    refine .of_error h rfl rfl (fun _ => ?_) nofun
    obtain rfl | ⟨rfl, -, -⟩ := encodeFrame_error hencode <;> simp [statusesOf]
  · exact .of_ok h rfl

theorem decodeAlone_ending {bytes present : List Byte} {n : Nat}
    (h : decodeAlone s present = .next t) : Ending (.decode bytes n false) s t := by
  unfold decodeAlone at h
  split at h
  · next hdec => exact .of_error h rfl rfl (fun _ => mem_statusesOf_decode hdec _ _ _) nofun
  · exact .of_ok h rfl

theorem decodeAgainst_ending {c : Context} {bytes present : List Byte} {n : Nat}
    (hc : s.ctx = some c) (h : decodeAgainst s c present = .next t) :
    Ending (.decode bytes n true) s t := by
  unfold decodeAgainst at h
  split at h
  · next hdec =>
    split at h
    · cases h
    · next hfail =>
      rw [respond_next] at h
      subst h
      exact .decodeFailed rfl rfl hdec hc hfail rfl
  · exact .of_ok h rfl

theorem execDecode_ending {bytes : List Byte} {n : Nat} {useCtx : Bool}
    (h : execDecode bytes n useCtx s = .next t) : Ending (.decode bytes n useCtx) s t := by
  cases useCtx with
  | false => exact decodeAlone_ending h
  | true =>
    obtain ⟨c, hc, hk⟩ := withContext_next h
    exact decodeAgainst_ending hc hk

theorem execRegister_ending {o : Byte} {cb : Cb} {ud : Ud}
    (h : execRegister o cb ud s = .next t) : Ending (.register o cb ud) s t := by
  obtain ⟨c, -, hk⟩ := withContext_next h
  split at hk
  · cases hk
  · split at hk
    · exact .of_error hk rfl rfl (fun _ => by simp [statusesOf]) nofun
    · exact .of_ok hk rfl

theorem execCtxRead_ending {sel : Byte} (h : execCtxRead sel s = .next t) : Ending i s t := by
  obtain ⟨c, -, hk⟩ := withContext_next h
  split at hk
  · cases hk
  · exact .of_ok hk rfl

theorem replyWith_ending {op : Nat} {m : Message} (h : replyWith u op m = .next t)
    (hu : u.responses = s.responses) : Ending i s t := by
  unfold replyWith at h
  split at h <;> exact .of_ok h hu

theorem execRequest_ending (h : execRequest s = .next t) : Ending i s t := by
  obtain ⟨c, -, -, hk⟩ := withRole_next h
  simp only at hk
  split at hk
  · obtain ⟨-, hreply⟩ := withCallback_next hk
    exact replyWith_ending hreply rfl
  · exact replyWith_ending hk rfl

theorem execSend_ending {dest : Byte} {m : Message} (h : execSend dest m s = .next t) :
    Ending (.send dest m) s t := by
  obtain ⟨c, -, -, hk⟩ := withRole_next h
  split at hk
  · next hencode =>
    refine .of_error hk rfl rfl (fun hp => ?_) nofun
    rw [encodeFrame_frameMax_error hp hencode]
    simp [statusesOf]
  · simp only at hk
    split at hk
    · exact .of_ok hk rfl
    · exact .of_error hk rfl rfl (fun _ => by simp [statusesOf]) nofun

theorem execScan_ending {start stop : Byte} {strict : Bool} {cap : Nat} {timeout : Timeout}
    (h : execScan start stop strict cap timeout s = .next t) : Ending i s t := by
  obtain ⟨c, -, -, hk⟩ := withRole_next h
  split at hk
  · cases hk
  · exact .of_ok hk rfl

theorem dispatchMessage_ending {c : Context} {m : Message} (h : dispatchMessage u c m = .next t)
    (hu : u.responses = s.responses) : Ending i s t := by
  obtain ⟨-, -, rfl⟩ | ⟨-, -, rfl⟩ | ⟨sl, -, -, -, rfl⟩ | ⟨-, -, -, -, rfl⟩ | ⟨-, -, -, rfl⟩ :=
    dispatchMessage_next h
  all_goals exact .of_ok rfl hu

/-- A bad frame is dropped with OK, a good one dispatched (43_dispatch.md R156). -/
theorem receivePath_ending {present : List Byte} (h : receivePath s present = .next t) :
    Ending i s t := by
  obtain ⟨c, -, -, ⟨st, c', -, -, rfl⟩ | ⟨m, -, hm⟩⟩ := receivePath_next h
  · exact .of_ok rfl rfl
  · exact dispatchMessage_ending hm rfl

/-- The walk through the instructions: how each of them ends (R207, R208). -/
theorem exec_ending (h : exec i s = .next t) : Ending i s t := by
  cases i
  case crc8 | msgInit | ctxInit => exact .of_ok h rfl
  case appendU8 | appendU16 | appendU32 => exact appendTo_ending h (by simp [statusesOf]) nofun
  case appendU24 => exact execAppendU24_ending h
  case readU8 | readU16 | readU32 => exact readTo_ending h (by simp [statusesOf]) nofun
  case encode => exact execEncode_ending h
  case decode => exact execDecode_ending h
  case register => exact execRegister_ending h
  case setOnMessage | setOnRequest =>
    obtain ⟨c, -, hk⟩ := withContext_next h
    exact .of_ok hk rfl
  case ctxRead => exact execCtxRead_ending h
  case request => exact execRequest_ending h
  case send => exact execSend_ending h
  case scan => exact execScan_ending h
  case receive | frameGeneral | frameUnclassified80BF | frameUnclassifiedC0DF
      | frameUnclassifiedE0EF | frameUnclassifiedF0F7 | frameUnclassifiedF8FB
      | frameUnclassifiedFCFD | frameSetReply | frameReservedFF =>
    exact receivePath_ending h

/-- The response that was added is one: two that say what it is have the same status. -/
theorem status_unique {st st' : Status} {r r' : Result}
    (h : t.responses = s.responses ++ [⟨st, r⟩]) (h' : t.responses = s.responses ++ [⟨st', r'⟩]) :
    st' = st := by
  have hresponse := List.append_cancel_left (h'.symm.trans h)
  injection hresponse with hresponse
  exact congrArg Response.status hresponse

end

/-- Settles O47, by the kind of the ending. -/
theorem operationsEndOnlyWithTheirStatuses : Obligations.OperationsEndOnlyWithTheirStatuses := by
  intro i s t st r hp h ht
  cases exec_ending h with
  | ok ht' =>
    obtain rfl := status_unique ht ht'
    exact ok_mem_statusesOf i
  | error ht' _ hst _ =>
    obtain rfl := status_unique ht ht'
    exact hst hp
  | decodeFailed hi ht' hdec _ _ _ =>
    obtain rfl := status_unique ht ht'
    exact hi ▸ mem_statusesOf_decode hdec _ _ _

/-- Settles O48, by the kind of the ending: only a failed DECODE against the Context writes it, and
then by `recordFailure`. -/
theorem errorsRecordOnlyTheStatistics : Obligations.ErrorsRecordOnlyTheStatistics := by
  intro i s t st r h ht hne
  cases exec_ending h with
  | ok ht' => exact absurd (status_unique ht ht').symm hne
  | error _ hctx _ hi =>
    exact ⟨fun _ => hctx, fun _ => hctx, fun bytes n hdecode => absurd hdecode (hi bytes n)⟩
  | decodeFailed hi ht' hdec hc hfail hctx =>
    obtain rfl := status_unique ht ht'
    exact ⟨fun hcode => absurd (statusCode_of_decodeFrame_error hdec) hcode,
      fun hno => absurd hi (hno _ _),
      fun _ _ _ => ⟨_, _, hc, hctx.trans (congrArg some (recordFailure_eq hfail))⟩⟩

end Sys2Proof.Machine
end

section
/-! PROOFS for 70_reset_and_hazards.md: the state after reset (R230). -/

namespace Sys2Proof.Machine

/-- Settles O57: each clause is a field of `State.reset` as its definition writes it. -/
theorem resetLeavesTheContextAbsent : Obligations.ResetLeavesTheContextAbsent := ⟨rfl, rfl, rfl⟩

end Sys2Proof.Machine
end
